-- ==== Sys2Proof/Word.lean ====
section
/-!
DEFINITION. The word types of the block: bytes and unsigned words (R15, R16). Every value of this
hardware is unsigned; lengths, positions and counts are natural numbers (R14, assumption 11).
-/
namespace Sys2Proof

/-- A byte; bit 0 is the least significant bit (R15). -/
abbrev Byte := BitVec 8

/-- A 32-bit register or checksum word (R33 to R37, R43). -/
abbrev Word32 := BitVec 32

/-- A 64-bit command operand or result (R9, R117). -/
abbrev Word64 := BitVec 64

end Sys2Proof
end

