-- ==== Sys2Proof/Syntax.lean ====
section
/-!
DEFINITION. The instructions of the block, one constructor per row of spec/opcode_table.json: tag
elements (R102 to R111), frame chunks (R113 to R116) and host commands (R117); the error kinds and
causes (R430, R431); the raw form of each opcode space.
-/
namespace Sys2Proof

/-- Error kinds (R430), without `OK`. -/
inductive Kind where
  | corruptInput | checksumMismatch | tooLarge | io | illegalCommand
  deriving DecidableEq, Repr

/-- Error causes (R431); each belongs to exactly one kind. -/
inductive Cause where
  | varintTruncated | varintOverflow
  | tagTruncated | literalTruncated | offsetZero | offsetBeyondOutput | overshoot | lengthShort
  | streamIdentMissing | streamIdentBad | reservedChunkType | chunkTooShort | chunkTooLong
  | chunkDecodedTooLong | truncatedStream
  | checksum
  | declaredLengthOverMax | declaredLengthOverCeiling | encodeInputTooLarge
  | sourceIo | sinkIo | sinkWriteZero
  | sessionClosed | unknownCommand | badRegister | regReadOnly
  deriving DecidableEq, Repr

/-- A command as the host issues it: the code of R117 and the operand values. The spec gives commands
no byte serialisation (R118); each command reads the operands R117 gives it (assumption 3). -/
structure HostCommand where
  code : Byte
  n    : Word64 := 0
  reg  : Byte := 0
  val  : Word32 := 0
  src  : List Byte := []
  deriving DecidableEq, Repr

/-- The instructions. Literals carry their bytes, copies their offset and length (R103 to R106,
R111); chunks carry their header fields (R113), and their payload is read when they execute
(assumption 20); commands carry their operands (R117). -/
inductive Instr where
  -- tag elements
  | lit   (b : List Byte)
  | litX1 (b : List Byte)
  | litX2 (b : List Byte)
  | litX3 (b : List Byte)
  | litX4 (b : List Byte)
  | copy1 (offset len : Nat)
  | copy2 (offset len : Nat)
  | copy4 (offset len : Nat)
  -- frame chunks
  | chunkCompressed   (len : Nat)
  | chunkUncompressed (len : Nat)
  | chunkReserved (ty : Byte) (len : Nat)
  | chunkSkip     (ty : Byte) (len : Nat)
  | chunkPad   (len : Nat)
  | chunkIdent (len : Nat)
  -- host commands
  | varintEncode (n : Word64)
  | varintDecode (src : List Byte)
  | maxCompressLen (n : Word64)
  | compress   (src : List Byte)
  | decompress (src : List Byte)
  | fwWrite (src : List Byte)
  | fwFlush
  | fwClose
  | frRead (max : Word64)
  | readReg  (r : Byte)
  | writeReg (r : Byte) (v : Word32)
  | resetWriter
  | resetReader
  | reset
  deriving DecidableEq, Repr

/-- An instruction in the raw form of its opcode space (30_encoding.md): the bytes of an element, the
4 header bytes of a chunk, or a host command. -/
inductive Encoded where
  | element (bytes : List Byte)
  | chunk   (bytes : List Byte)
  | command (c : HostCommand)
  deriving DecidableEq, Repr

end Sys2Proof
end

