-- ==== Sys2Proof/WellFormed.lean ====
section
/-!
DEFINITION. Which instructions an encoding can express: the operand ranges of R103 to R106, R111, R113
and R114.
-/
namespace Sys2Proof

/-- A literal whose length field has `k` extra bytes holds 1 to 256^k bytes (R103, R111). -/
def literalFits (k : Nat) (b : List Byte) : Bool :=
  decide (1 ≤ b.length ∧ b.length ≤ 256 ^ k)

/-- A payload length fits the 24-bit field (R113). -/
def chunkLenFits (len : Nat) : Bool := decide (len < 2 ^ 24)

/-- The operands of an instruction are in the ranges its encoding can express. -/
def Instr.wellFormed : Instr → Bool
  | .lit b => decide (1 ≤ b.length ∧ b.length ≤ 60)
  | .litX1 b => literalFits 1 b
  | .litX2 b => literalFits 2 b
  | .litX3 b => literalFits 3 b
  | .litX4 b => literalFits 4 b
  | .copy1 offset len => decide (offset ≤ 2047 ∧ 4 ≤ len ∧ len ≤ 11)
  | .copy2 offset len => decide (offset ≤ 65535 ∧ 1 ≤ len ∧ len ≤ 64)
  | .copy4 offset len => decide (offset ≤ 4294967295 ∧ 1 ≤ len ∧ len ≤ 64)
  | .chunkCompressed len => chunkLenFits len
  | .chunkUncompressed len => chunkLenFits len
  | .chunkReserved ty len => decide (0x02 ≤ ty.toNat ∧ ty.toNat ≤ 0x7F) && chunkLenFits len
  | .chunkSkip ty len => decide (0x80 ≤ ty.toNat ∧ ty.toNat ≤ 0xFD) && chunkLenFits len
  | .chunkPad len => chunkLenFits len
  | .chunkIdent len => chunkLenFits len
  | .varintEncode _ | .varintDecode _ | .maxCompressLen _ | .compress _ | .decompress _
  | .fwWrite _ | .fwFlush | .fwClose | .frRead _ | .readReg _ | .writeReg _ _
  | .resetWriter | .resetReader | .reset => true

/-- The instruction is a tag element (R102). -/
def Instr.isElement : Instr → Bool
  | .lit _ | .litX1 _ | .litX2 _ | .litX3 _ | .litX4 _
  | .copy1 _ _ | .copy2 _ _ | .copy4 _ _ => true
  | .chunkCompressed _ | .chunkUncompressed _ | .chunkReserved _ _ | .chunkSkip _ _
  | .chunkPad _ | .chunkIdent _
  | .varintEncode _ | .varintDecode _ | .maxCompressLen _ | .compress _ | .decompress _
  | .fwWrite _ | .fwFlush | .fwClose | .frRead _ | .readReg _ | .writeReg _ _
  | .resetWriter | .resetReader | .reset => false

/-- The instruction is a frame chunk (R114). -/
def Instr.isChunk : Instr → Bool
  | .chunkCompressed _ | .chunkUncompressed _ | .chunkReserved _ _ | .chunkSkip _ _
  | .chunkPad _ | .chunkIdent _ => true
  | .lit _ | .litX1 _ | .litX2 _ | .litX3 _ | .litX4 _
  | .copy1 _ _ | .copy2 _ _ | .copy4 _ _
  | .varintEncode _ | .varintDecode _ | .maxCompressLen _ | .compress _ | .decompress _
  | .fwWrite _ | .fwFlush | .fwClose | .frRead _ | .readReg _ | .writeReg _ _
  | .resetWriter | .resetReader | .reset => false

end Sys2Proof
end

