-- ==== Sys2Proof/Decode.lean ====
section
/-!
DEFINITION. Decoding and encoding of the three opcode spaces: `decode_elem` (R112) and `encode_elem`
(R111), chunk headers (R113, R114) and host command codes (R117). Decoding is total on any bytes and
rejects by the cause the spec names.
-/
namespace Sys2Proof

/-! ### Bit fields and byte order -/

/-- `t[hi:lo]` of a byte (R15). -/
def field (t : Byte) (hi lo : Nat) : Nat := t.toNat / 2 ^ lo % 2 ^ (hi + 1 - lo)

/-- `LE(b)` (R17). -/
def leValue : List Byte → Nat
  | [] => 0
  | b :: bs => b.toNat + 256 * leValue bs

/-- `LE_k(v)`: the `k` bytes whose value is `v mod 256^k` (R17). -/
def leBytes : Nat → Nat → List Byte
  | 0, _ => []
  | k + 1, v => BitVec.ofNat 8 v :: leBytes k (v / 256)

/-! ### Elements -/

/-- The literal bytes after a tag and `k` length bytes (R112): `LITERAL_TRUNCATED` when they run past
the end of the input. -/
def literalTail (k len : Nat) (rest : List Byte) (mk : List Byte → Instr) :
    Except Cause (Instr × Nat) :=
  if rest.length < len then .error .literalTruncated
  else .ok (mk (rest.take len), 1 + k + len)

/-- A literal whose length field is the `k` bytes after the tag (R103, R112). -/
def decodeLiteralX (k : Nat) (x : List Byte) (mk : List Byte → Instr) :
    Except Cause (Instr × Nat) :=
  if x.length < k then .error .tagTruncated
  else literalTail k (leValue (x.take k) + 1) (x.drop k) mk

/-- A literal element with tag field `m`, where `x` is the input after the tag (R103). -/
def decodeLiteral (m : Nat) (x : List Byte) : Except Cause (Instr × Nat) :=
  if m < 60 then literalTail 0 (m + 1) x .lit
  else if m = 60 then decodeLiteralX 1 x .litX1
  else if m = 61 then decodeLiteralX 2 x .litX2
  else if m = 62 then decodeLiteralX 3 x .litX3
  else decodeLiteralX 4 x .litX4

/-- Copy1 (R104): the 11-bit offset is `t[7:5]` above the next byte (90_conflicts.md C2). -/
def decodeCopy1 (t : Byte) (x : List Byte) : Except Cause (Instr × Nat) :=
  if x.length < 1 then .error .tagTruncated
  else .ok (.copy1 (field t 7 5 * 256 + leValue (x.take 1)) (field t 4 2 + 4), 2)

/-- Copy2 (R105). -/
def decodeCopy2 (t : Byte) (x : List Byte) : Except Cause (Instr × Nat) :=
  if x.length < 2 then .error .tagTruncated
  else .ok (.copy2 (leValue (x.take 2)) (field t 7 2 + 1), 3)

/-- Copy4 (R106). -/
def decodeCopy4 (t : Byte) (x : List Byte) : Except Cause (Instr × Nat) :=
  if x.length < 4 then .error .tagTruncated
  else .ok (.copy4 (leValue (x.take 4)) (field t 7 2 + 1), 5)

/-- `decode_elem` (R112) on the input from the cursor on: the element and its length in bytes, or the
truncation cause. R112 asks for a cursor below `N`, so the empty case is never used. -/
def decodeElem : List Byte → Except Cause (Instr × Nat)
  | [] => .error .tagTruncated
  | t :: x =>
    if field t 1 0 = 0 then decodeLiteral (field t 7 2) x
    else if field t 1 0 = 1 then decodeCopy1 t x
    else if field t 1 0 = 2 then decodeCopy2 t x
    else decodeCopy4 t x

/-! ### Chunk headers -/

/-- The chunk-type map (R114). -/
def chunkOf (ty : Byte) (len : Nat) : Instr :=
  if ty.toNat = 0x00 then .chunkCompressed len
  else if ty.toNat = 0x01 then .chunkUncompressed len
  else if ty.toNat ≤ 0x7F then .chunkReserved ty len
  else if ty.toNat ≤ 0xFD then .chunkSkip ty len
  else if ty.toNat = 0xFE then .chunkPad len
  else .chunkIdent len

/-- A chunk header: the type byte and the 3-byte little-endian length (R113, R353). Fewer than 4 bytes
are a truncated stream (R352). -/
def decodeChunk : List Byte → Except Cause Instr
  | ty :: a :: b :: c :: _ => .ok (chunkOf ty (leValue [a, b, c]))
  | _ => .error .truncatedStream

/-! ### Host commands -/

/-- The host command codes (R117); every other code is `UNKNOWN_COMMAND` (R405). -/
def decodeCommand (c : HostCommand) : Except Cause Instr :=
  if c.code = 0x01 then .ok (.varintEncode c.n)
  else if c.code = 0x02 then .ok (.varintDecode c.src)
  else if c.code = 0x10 then .ok (.maxCompressLen c.n)
  else if c.code = 0x11 then .ok (.compress c.src)
  else if c.code = 0x20 then .ok (.decompress c.src)
  else if c.code = 0x30 then .ok (.fwWrite c.src)
  else if c.code = 0x31 then .ok .fwFlush
  else if c.code = 0x32 then .ok .fwClose
  else if c.code = 0x40 then .ok (.frRead c.n)
  else if c.code = 0x50 then .ok (.readReg c.reg)
  else if c.code = 0x51 then .ok (.writeReg c.reg c.val)
  else if c.code = 0x7D then .ok .resetWriter
  else if c.code = 0x7E then .ok .resetReader
  else if c.code = 0x7F then .ok .reset
  else .error .unknownCommand

/-- The decoder: the instruction at the start of its raw form and how many bytes of it the raw form
holds (0 for a command, which has no bytes, R118), or the cause of its rejection. -/
def decode : Encoded → Except Cause (Instr × Nat)
  | .element b => decodeElem b
  | .chunk b => (decodeChunk b).map fun i => (i, 4)
  | .command c => (decodeCommand c).map fun i => (i, 0)

/-! ### The encoder -/

/-- A literal with a `k`-byte length field (R111: `Literal` and `LiteralW`), tag `(59 + k) << 2`. -/
def encodeLiteralX (k : Nat) (b : List Byte) : List Byte :=
  BitVec.ofNat 8 ((59 + k) * 4) :: leBytes k (b.length - 1) ++ b

/-- `encode_elem` (R111). An instruction that is no element has no tag bytes. -/
def encodeElem : Instr → List Byte
  | .lit b => BitVec.ofNat 8 ((b.length - 1) * 4) :: b
  | .litX1 b => encodeLiteralX 1 b
  | .litX2 b => encodeLiteralX 2 b
  | .litX3 b => encodeLiteralX 3 b
  | .litX4 b => encodeLiteralX 4 b
  | .copy1 offset len =>
    BitVec.ofNat 8 (offset / 256 * 32 + (len - 4) * 4 + 1) :: leBytes 1 offset
  | .copy2 offset len => BitVec.ofNat 8 ((len - 1) * 4 + 2) :: leBytes 2 offset
  | .copy4 offset len => BitVec.ofNat 8 ((len - 1) * 4 + 3) :: leBytes 4 offset
  | .chunkCompressed _ | .chunkUncompressed _ | .chunkReserved _ _ | .chunkSkip _ _
  | .chunkPad _ | .chunkIdent _
  | .varintEncode _ | .varintDecode _ | .maxCompressLen _ | .compress _ | .decompress _
  | .fwWrite _ | .fwFlush | .fwClose | .frRead _ | .readReg _ | .writeReg _ _
  | .resetWriter | .resetReader | .reset => []

/-- A chunk header (R113). -/
def chunkHeader (ty : Byte) (len : Nat) : List Byte := ty :: leBytes 3 len

/-- `Literal(b)` with the narrowest length field (R111, R200). -/
def literalInstr (b : List Byte) : Instr :=
  if b.length ≤ 60 then .lit b
  else if b.length ≤ 256 then .litX1 b
  else if b.length ≤ 65536 then .litX2 b
  else if b.length ≤ 16777216 then .litX3 b
  else .litX4 b

/-- The encoder: the raw form of an instruction (R111, R113, R114, R117). -/
def encode : Instr → Encoded
  | .lit b => .element (encodeElem (.lit b))
  | .litX1 b => .element (encodeElem (.litX1 b))
  | .litX2 b => .element (encodeElem (.litX2 b))
  | .litX3 b => .element (encodeElem (.litX3 b))
  | .litX4 b => .element (encodeElem (.litX4 b))
  | .copy1 offset len => .element (encodeElem (.copy1 offset len))
  | .copy2 offset len => .element (encodeElem (.copy2 offset len))
  | .copy4 offset len => .element (encodeElem (.copy4 offset len))
  | .chunkCompressed len => .chunk (chunkHeader 0x00 len)
  | .chunkUncompressed len => .chunk (chunkHeader 0x01 len)
  | .chunkReserved ty len => .chunk (chunkHeader ty len)
  | .chunkSkip ty len => .chunk (chunkHeader ty len)
  | .chunkPad len => .chunk (chunkHeader 0xFE len)
  | .chunkIdent len => .chunk (chunkHeader 0xFF len)
  | .varintEncode n => .command { code := 0x01, n := n }
  | .varintDecode src => .command { code := 0x02, src := src }
  | .maxCompressLen n => .command { code := 0x10, n := n }
  | .compress src => .command { code := 0x11, src := src }
  | .decompress src => .command { code := 0x20, src := src }
  | .fwWrite src => .command { code := 0x30, src := src }
  | .fwFlush => .command { code := 0x31 }
  | .fwClose => .command { code := 0x32 }
  | .frRead max => .command { code := 0x40, n := max }
  | .readReg r => .command { code := 0x50, reg := r }
  | .writeReg r v => .command { code := 0x51, reg := r, val := v }
  | .resetWriter => .command { code := 0x7D }
  | .resetReader => .command { code := 0x7E }
  | .reset => .command { code := 0x7F }

/-! ### Lengths -/

/-- The length of an element in bytes, from its tag and its length field alone (R107); 0 for no bytes. -/
def elemLength : List Byte → Nat
  | [] => 0
  | t :: x =>
    if field t 1 0 = 0 then
      if field t 7 2 < 60 then 1 + (field t 7 2 + 1)
      else 1 + (field t 7 2 - 59) + (leValue (x.take (field t 7 2 - 59)) + 1)
    else if field t 1 0 = 1 then 2
    else if field t 1 0 = 2 then 3
    else 5

/-- The bytes a raw form holds of its instruction: a chunk's are its header; a command has none (R118). -/
def Encoded.size : Encoded → Nat
  | .element b => b.length
  | .chunk b => b.length
  | .command _ => 0

/-- The bytes of an instruction: an element's length (R107, the opcode table's "length"), a chunk's 4
header bytes (R113), none for a command (R118). -/
def Instr.size : Instr → Nat
  | .lit b => 1 + b.length
  | .litX1 b => 2 + b.length
  | .litX2 b => 3 + b.length
  | .litX3 b => 4 + b.length
  | .litX4 b => 5 + b.length
  | .copy1 _ _ => 2
  | .copy2 _ _ => 3
  | .copy4 _ _ => 5
  | .chunkCompressed _ | .chunkUncompressed _ | .chunkReserved _ _ | .chunkSkip _ _
  | .chunkPad _ | .chunkIdent _ => 4
  | .varintEncode _ | .varintDecode _ | .maxCompressLen _ | .compress _ | .decompress _
  | .fwWrite _ | .fwFlush | .fwClose | .frRead _ | .readReg _ | .writeReg _ _
  | .resetWriter | .resetReader | .reset => 0

/-! ### The opcode table's numbering -/

/-- The opcode spaces a word of opcode_table.json may belong to. -/
inductive OpSpace where
  | tag | chunk | command
  deriving DecidableEq, Repr

/-- Which opcode space a word of the opcode table is read in. The three spaces overlap and the table
numbers their bits alike, so the word alone does not say (assumption 14): a one-byte word that is a
command code of R117 is that command; other one-byte words from 0x80 up but the tags of LIT_X1 to
LIT_X4 are chunk types; four bytes are a chunk header, but for the tag of LIT_X3; all else is a tag. -/
def tableSpace (nbits w : Nat) : OpSpace :=
  let b := w % 256
  let wideTag := b = 0xF0 ∨ b = 0xF4 ∨ b = 0xF8 ∨ b = 0xFC
  if nbits ≤ 8 then
    if (decodeCommand { code := BitVec.ofNat 8 b }).isOk then .command
    else if 0x80 ≤ b ∧ ¬ wideTag then .chunk
    else .tag
  else if nbits ≤ 32 ∧ 24 < nbits ∧ b ≠ 0xF8 then .chunk
  else .tag

/-- The bytes of a table word, its first byte first. -/
def tableBytes (nbits w : Nat) : List Byte := leBytes ((nbits + 7) / 8) w

/-- A table word as the bytes of one element: zero bytes follow, as many as the element has. -/
def tableElement (nbits w : Nat) : List Byte :=
  let b := tableBytes nbits w
  b ++ List.replicate (elemLength (b ++ List.replicate 5 0) - b.length) 0

/-- A table word as the 4 header bytes of a chunk. -/
def tableChunk (nbits w : Nat) : List Byte := (tableBytes nbits w ++ List.replicate 4 0).take 4

/-- A table word as a host command with zero operands. -/
def tableCommand (w : Nat) : HostCommand := { code := BitVec.ofNat 8 w }

/-- The raw form of a table word (assumption 14). -/
def tableEncoded (nbits w : Nat) : Encoded :=
  match tableSpace nbits w with
  | .tag => .element (tableElement nbits w)
  | .chunk => .chunk (tableChunk nbits w)
  | .command => .command (tableCommand w)

/-- The instruction the decoder reads from a word of the opcode table. -/
def decodeTableWord (nbits w : Nat) : Option Instr :=
  match decode (tableEncoded nbits w) with
  | .ok (i, _) => some i
  | .error _ => none

end Sys2Proof
end

