-- ==== Sys2Proof/Config.lean ====
section
/-!
DEFINITION. The implementation parameters (R6 to R11) and the open parameters EncoderPolicy,
FallbackPolicy, SourceOracle and SinkOracle (R13): which one a block has is data in State; what one does
that the spec does not write out is a free value.
-/
namespace Sys2Proof.Config

/-- `P_MAX_BLOCK_LEN` (R6). -/
def maxBlockLen : Nat := 4294967295

/-- `P_CHUNK_MAX` (R7). -/
def chunkMax : Nat := 65536

/-- `P_BOUND_CONST` (R8). -/
def boundConst : Nat := 32

/-- `P_SHINGLE` (R10). -/
def shingle : Nat := 4

/-- Which `EncoderPolicy` (R13) the block has: the reference instance REF (R185 to R205) or another
conforming policy, named by a number (assumptions 7, 8). -/
inductive EncoderChoice where
  | ref
  | other (n : Nat)
  deriving DecidableEq, Repr

/-- Which `FallbackPolicy` (R13) the block has: REF (R318) or another one that meets R317
(assumption 9). -/
inductive FallbackChoice where
  | ref
  | other (n : Nat)
  deriving DecidableEq, Repr

/-- What MAX_COMPRESS_LEN does with a length above `P_MAX_BLOCK_LEN` (assumption 25), where the spec's rules
disagree: it refuses it (R182), or it raises nothing and answers (R430, R432). -/
inductive OversizeBound where
  | refused
  | answered
  deriving DecidableEq, Repr

/-- FREE VALUE: what MAX_COMPRESS_LEN answers for a length whose bound does not fit its 64-bit result, where
it answers at all; the spec states no result there (assumption 25). -/
opaque boundBeyondWidth : Word64 → Word64

/-- One answer of the source (R77): a run of bytes, at least one, which one or more reads take; `EOF`;
`IoFail` (assumption 5). -/
inductive SourceEvent where
  | data (b : Byte) (bs : List Byte)
  | eof
  | ioFail
  deriving DecidableEq, Repr, Inhabited

/-- One answer of the sink (R78): the most bytes it accepts of the write, or `IoFail` (assumption 6). -/
inductive SinkAnswer where
  | accept (most : Nat)
  | ioFail
  deriving DecidableEq, Repr, Inhabited

/-- FREE VALUE: answer number `k` of `SourceOracle` number `n` (R13, R77). Nothing constrains it: every
sequence of answers, a never-ending one among them, is a possible value (assumption 5). -/
opaque sourceOracle : Nat → Nat → SourceEvent

/-- FREE VALUE: answer number `k` of `SinkOracle` number `n` (R13, R78; assumption 6). -/
opaque sinkOracle : Nat → Nat → SinkAnswer

/-- FREE VALUE: the body bytes that policy number `n` proposes for an input. Nothing constrains it;
the model uses it only where it meets the conformance conditions of R181 (assumption 8). -/
opaque otherBody : Nat → List Byte → List Byte

/-- FREE VALUE: what HT holds after policy number `n` has compressed an input, as (index, entry)
writes to a cleared table (R180, R42, assumption 18). -/
opaque otherHashTable : Nat → List Byte → List (Nat × BitVec 16)

/-- FREE VALUE: what the encoder working registers of R42, numbered in that rule's order from 0, hold
after policy number `n` has compressed an input (assumption 18). -/
opaque otherRegister : Nat → List Byte → Nat → Nat

/-- FREE VALUE: whether fallback policy number `n` sends a chunk of `raw` bytes that compresses to
`comp` bytes uncompressed; used only where R317 leaves the choice (assumption 9). -/
opaque otherFallback : Nat → Nat → Nat → Bool

end Sys2Proof.Config
end

