-- ==== Sys2Proof/Machine/State.lean ====
section
/-!
DEFINITION. The state of the block (10_state.md), the host's side of its interface, the reasons a step
can stop, and the state after reset (R48, R471).
-/
namespace Sys2Proof.Machine

/-! ### Registers and sessions -/

/-- STATUS (R35): the result of the last completed command (none is `OK`) and its code. KIND and CAUSE
are computed from the result (Flags.lean, assumption 12). -/
structure Status where
  result  : Option Cause
  lastCmd : Byte
  deriving DecidableEq, Repr

/-- `W.phase` together with `W.fail`, which holds an error exactly in `Failed` (R39, assumption 12). -/
inductive WPhase where
  | opened
  | closed
  | failed (c : Cause)
  deriving DecidableEq, Repr

/-- The writer session W (R39). -/
structure Writer where
  phase     : WPhase
  identSent : Bool
  buf       : List Byte
  deriving DecidableEq, Repr

/-- The reader session R (R40). -/
structure Reader where
  identSeen : Bool
  pending   : List Byte
  fail      : Option Cause
  eos       : Bool
  consumed  : Nat
  deriving DecidableEq, Repr

/-- The block decoder's working registers (R41): the operand `SRC`, the cursor `s` (`pc`), the declared
length `L` and `DST[0 .. d)`. `N` is the length of `src` and `d` the length of `dst`: bytes of DST at
or beyond `d` hold no value (R47, assumption 16). -/
structure Decoder where
  src : List Byte
  pc  : Nat
  len : Nat
  dst : List Byte
  deriving DecidableEq, Repr

/-- The hash table HT (R42) as (index, entry) pairs in canonical form: indexes strictly rising, no
entry 0, which is what an unlisted index reads (its reset value, R48; assumption 15). -/
abbrev HashTable := List (Nat × BitVec 16)

/-- The block encoder's working registers (R42). -/
structure EncoderRegs where
  ht       : HashTable
  size     : Nat
  shift    : Nat
  s        : Nat
  nextEmit : Nat
  cand     : Nat
  skip     : Nat
  nextHash : Nat
  sLimit   : Nat
  deriving DecidableEq, Repr

/-- What the engine is doing (R30, R244, R352): nothing; the decode loop of DECOMPRESS; the chunk loop
of `FR_READ(max)`; the decode loop of one compressed chunk of `FR_READ(max)`, whose stored checksum
bytes are kept until the decode ends (R360). -/
inductive Engine where
  | idle
  | decompressing
  | reading (max : Word64)
  | decodingChunk (max : Word64) (stored : List Byte)
  deriving DecidableEq, Repr

/-! ### The host's side of the interface -/

/-- The results of a command that completed with `OK` (R117). -/
inductive Results where
  | none
  | bytes (b : List Byte)
  | varint (n : Word64) (consumed : Byte)
  | bound (n : Word64)
  | count (n : Word64)
  | read (b : List Byte) (eos : Bool)
  | reg (v : Word32)
  deriving DecidableEq, Repr

/-- A response (R118): results only when the command completed with `OK`. -/
inductive Response where
  | ok (r : Results)
  | error (c : Cause)
  deriving DecidableEq, Repr

/-- What the source answers once its listed answers are used up (R13; assumption 5): `EOF` for ever, or
the answers of oracle number `n` from its answer number `k` on. -/
inductive SourceRest where
  | ends
  | oracle (n k : Nat)
  deriving DecidableEq, Repr

/-- The source's coming answers (R77): those listed, then the rest. -/
structure Source where
  coming : List Config.SourceEvent
  rest   : SourceRest
  deriving DecidableEq, Repr

/-- What the sink answers once its listed answers are used up (R13; assumption 6): it accepts every write
in full, or it answers as oracle number `n` does from its answer number `k` on. -/
inductive SinkRest where
  | accepts
  | oracle (n k : Nat)
  deriving DecidableEq, Repr

/-- The sink's coming answers (R78): those listed, then the rest. -/
structure SinkScript where
  coming : List Config.SinkAnswer
  rest   : SinkRest
  deriving DecidableEq, Repr

/-- The block's `EncoderPolicy` and `FallbackPolicy` (R13; assumptions 7, 9), and which of the spec's
readings of MAX_COMPRESS_LEN it follows above the limit (assumption 25). -/
structure Policy where
  encoder  : Config.EncoderChoice
  fallback : Config.FallbackChoice
  oversize : Config.OversizeBound
  deriving DecidableEq, Repr

/-! ### The state -/

/-- Everything the spec gives the block, and the host's side of the interface. -/
structure State where
  /-- `CFG_MAX_DECODE.MAX` (R33) -/
  cfgMaxDecode : Word32
  /-- `CFG_CTRL.REQ_IDENT` (R34) -/
  reqIdent : Bool
  /-- STATUS (R35) -/
  status : Status
  /-- the writer session (R39) -/
  w : Writer
  /-- the reader session (R40) -/
  r : Reader
  /-- the block decoder's registers (R41) -/
  dec : Decoder
  /-- the block encoder's registers, HT among them (R42) -/
  enc : EncoderRegs
  /-- the checksum register (R43) -/
  crc : Word32
  /-- which command is running, if any -/
  engine : Engine
  /-- commands the host has issued and the engine has not taken (assumption 4) -/
  commands : List HostCommand
  /-- responses of completed commands, oldest first (assumption 4) -/
  responses : List Response
  /-- the source's coming answers (R77) -/
  source : Source
  /-- the sink's coming answers (R78) -/
  sinkScript : SinkScript
  /-- the bytes the sink has accepted, in order (R78, R83) -/
  sink : List Byte
  /-- the open policies (R13) and the reading of MAX_COMPRESS_LEN (assumption 25) -/
  policy : Policy
  deriving DecidableEq, Repr

/-- Why a step stops for good. Neither is an error of the spec: those are next states (R437). -/
inductive Fault where
  /-- raised by the meaning of a tag element when no decode loop runs: an element exists only inside a
  tag stream that DECOMPRESS or a compressed chunk decodes. Safe; no step reaches it (assumption 13). -/
  | noDecodeInProgress
  /-- raised by the meaning of a chunk when no FR_READ runs: a chunk exists only inside the stream that
  FR_READ reads. Safe; no step reaches it (assumption 13). -/
  | noReadInProgress
  deriving DecidableEq, Repr

/-- Why an instruction has no meaning in this model. -/
inductive Refusal where
  /-- raised only by an arm of `exec` whose instruction has no meaning yet; safe -/
  | notModelled (mnemonic : String)
  deriving DecidableEq, Repr

/-- The outcome of one instruction or step. -/
abbrev StepResult := Host.Outcome State Fault Refusal

/-! ### Reset -/

/-- The writer session after reset (R48, R403). -/
def Writer.reset : Writer := { phase := .opened, identSent := false, buf := [] }

/-- The reader session after reset (R48, R404). -/
def Reader.reset : Reader :=
  { identSeen := false, pending := [], fail := none, eos := false, consumed := 0 }

/-- DESIGN CHOICE (assumption 10): the decoder's transient registers at reset. -/
def Decoder.reset : Decoder := { src := [], pc := 0, len := 0, dst := [] }

/-- HT all 0 (R48); DESIGN CHOICE (assumption 10) for the encoder's transient registers. -/
def EncoderRegs.reset : EncoderRegs :=
  { ht := [], size := 0, shift := 0, s := 0, nextEmit := 0, cand := 0, skip := 0, nextHash := 0,
    sLimit := 0 }

/-- The state after the external reset (R48, R470, R471): the host has issued nothing, the source and
the sink have no answers lined up (DESIGN CHOICE, assumptions 5, 6), the policies are REF, and MAX_COMPRESS_LEN
follows R182 (DESIGN CHOICE, assumptions 7, 9, 25). -/
def State.reset : State :=
  { cfgMaxDecode := 0xFFFFFFFF
    reqIdent := true
    status := { result := none, lastCmd := 0 }
    w := Writer.reset
    r := Reader.reset
    dec := Decoder.reset
    enc := EncoderRegs.reset
    crc := 0
    engine := .idle
    commands := []
    responses := []
    source := { coming := [], rest := .ends }
    sinkScript := { coming := [], rest := .accepts }
    sink := []
    policy := { encoder := .ref, fallback := .ref, oversize := .refused } }

/-! ### Updates, one field each -/

def State.setCfgMaxDecode (s : State) (v : Word32) : State := { s with cfgMaxDecode := v }
def State.setReqIdent (s : State) (v : Bool) : State := { s with reqIdent := v }
def State.setStatus (s : State) (v : Status) : State := { s with status := v }
def State.setW (s : State) (v : Writer) : State := { s with w := v }
def State.setR (s : State) (v : Reader) : State := { s with r := v }
def State.setDec (s : State) (v : Decoder) : State := { s with dec := v }
def State.setEnc (s : State) (v : EncoderRegs) : State := { s with enc := v }
def State.setCrc (s : State) (v : Word32) : State := { s with crc := v }
def State.setEngine (s : State) (v : Engine) : State := { s with engine := v }
def State.setCommands (s : State) (v : List HostCommand) : State := { s with commands := v }
def State.setResponses (s : State) (v : List Response) : State := { s with responses := v }
def State.setSource (s : State) (v : Source) : State := { s with source := v }
def State.setSinkScript (s : State) (v : SinkScript) : State := { s with sinkScript := v }
def State.setSink (s : State) (v : List Byte) : State := { s with sink := v }

end Sys2Proof.Machine
end

