-- ==== Sys2Proof/Machine/Flags.lean ====
section
/-!
DEFINITION. The words software reads: kind and cause codes (R430, R431), STATUS (R35), and the views
WSTATE (R36) and RSTATE (R37) of the sessions.
-/
namespace Sys2Proof.Machine

/-- The kind a cause belongs to (R431). -/
def causeKind : Cause → Kind
  | .varintTruncated | .varintOverflow
  | .tagTruncated | .literalTruncated | .offsetZero | .offsetBeyondOutput | .overshoot
  | .lengthShort
  | .streamIdentMissing | .streamIdentBad | .reservedChunkType | .chunkTooShort | .chunkTooLong
  | .chunkDecodedTooLong | .truncatedStream => .corruptInput
  | .checksum => .checksumMismatch
  | .declaredLengthOverMax | .declaredLengthOverCeiling | .encodeInputTooLarge => .tooLarge
  | .sourceIo | .sinkIo | .sinkWriteZero => .io
  | .sessionClosed | .unknownCommand | .badRegister | .regReadOnly => .illegalCommand

/-- `STATUS.KIND` codes (R430); `OK` is 0. -/
def kindCode : Kind → Nat
  | .corruptInput => 1
  | .checksumMismatch => 2
  | .tooLarge => 3
  | .io => 4
  | .illegalCommand => 5

/-- `STATUS.CAUSE` codes (R431). -/
def causeCode : Cause → Nat
  | .varintTruncated => 0x01
  | .varintOverflow => 0x02
  | .tagTruncated => 0x10
  | .literalTruncated => 0x11
  | .offsetZero => 0x12
  | .offsetBeyondOutput => 0x13
  | .overshoot => 0x14
  | .lengthShort => 0x15
  | .streamIdentMissing => 0x20
  | .streamIdentBad => 0x21
  | .reservedChunkType => 0x22
  | .chunkTooShort => 0x23
  | .chunkTooLong => 0x24
  | .chunkDecodedTooLong => 0x25
  | .truncatedStream => 0x26
  | .checksum => 0x30
  | .declaredLengthOverMax => 0x40
  | .declaredLengthOverCeiling => 0x41
  | .encodeInputTooLarge => 0x42
  | .sourceIo => 0x50
  | .sinkIo => 0x51
  | .sinkWriteZero => 0x52
  | .sessionClosed => 0x60
  | .unknownCommand => 0x61
  | .badRegister => 0x62
  | .regReadOnly => 0x63

/-- The KIND code of a result; 0 is `OK` (R35). -/
def resultKindCode : Option Cause → Nat
  | none => 0
  | some c => kindCode (causeKind c)

/-- The CAUSE code of a result; 0 for `OK` (R35). -/
def resultCauseCode : Option Cause → Nat
  | none => 0
  | some c => causeCode c

/-- A flag as a bit. -/
def flagBit (b : Bool) : Nat := if b then 1 else 0

/-- STATUS as software reads it (R35): KIND in 3:0, CAUSE in 15:8, LAST_CMD in 23:16. -/
def statusWord (st : Status) : Word32 :=
  BitVec.ofNat 32
    (resultKindCode st.result + resultCauseCode st.result * 2 ^ 8 + st.lastCmd.toNat * 2 ^ 16)

/-- `W.fail` (R39). -/
def writerFail (w : Writer) : Option Cause :=
  match w.phase with
  | .failed c => some c
  | .opened | .closed => none

/-- The PHASE code (R36). -/
def phaseCode : WPhase → Nat
  | .opened => 0
  | .closed => 1
  | .failed _ => 2

/-- WSTATE (R36): BUFFERED in 16:0, IDENT_SENT in 17, PHASE in 19:18, FAIL_KIND in 23:20, FAIL_CAUSE in
31:24. -/
def wstateWord (w : Writer) : Word32 :=
  BitVec.ofNat 32
    (w.buf.length % 2 ^ 17 + flagBit w.identSent * 2 ^ 17 + phaseCode w.phase * 2 ^ 18
      + resultKindCode (writerFail w) * 2 ^ 20 + resultCauseCode (writerFail w) * 2 ^ 24)

/-- RSTATE (R37): PENDING in 16:0, IDENT_SEEN in 17, FAILED in 18, EOS in 19, FAIL_KIND in 23:20,
FAIL_CAUSE in 31:24. -/
def rstateWord (r : Reader) : Word32 :=
  BitVec.ofNat 32
    (r.pending.length % 2 ^ 17 + flagBit r.identSeen * 2 ^ 17 + flagBit r.fail.isSome * 2 ^ 18
      + flagBit r.eos * 2 ^ 19 + resultKindCode r.fail * 2 ^ 20 + resultCauseCode r.fail * 2 ^ 24)

/-- CFG_CTRL as software reads it (R34): REQ_IDENT in bit 0, the rest 0. -/
def ctrlWord (reqIdent : Bool) : Word32 := BitVec.ofNat 32 (flagBit reqIdent)

end Sys2Proof.Machine
end

