-- ==== Sys2Proof/Machine/Ops.lean ====
section
/-!
DEFINITION. The shared operations: completing a command (R406) and raising an error (R19, R437), the
source and sink channels (R77 to R80), delivery of decoded bytes (R362), and the hash table (R42).
-/
namespace Sys2Proof.Machine

/-! ### Command codes (R117) -/

def cmdDecompress : Byte := 0x20
def cmdFwWrite : Byte := 0x30
def cmdFwFlush : Byte := 0x31
def cmdFwClose : Byte := 0x32
def cmdFrRead : Byte := 0x40

/-- The writer commands (R310). -/
def isWriterCmd (cmd : Byte) : Bool :=
  decide (cmd = cmdFwWrite ∨ cmd = cmdFwFlush ∨ cmd = cmdFwClose)

/-! ### Completing a command -/

/-- The end of every command (R406, R118): STATUS takes the result and the command code, the response
is given, and the engine is idle again (R30). -/
def finish (cmd : Byte) (result : Option Cause) (resp : Response) (s : State) : State :=
  ((s.setStatus { result := result, lastCmd := cmd }).setResponses (s.responses ++ [resp])).setEngine
    .idle

/-- A command completes with `OK` and results (R18 `return`, R406). -/
def complete (cmd : Byte) (r : Results) (s : State) : State := finish cmd none (.ok r) s

/-- What error entry does to the writer session (R437 step 2, R324): every error of a writer command
but `IllegalCommand` fails the session and loses its buffer. -/
def writerAfterRaise (cmd : Byte) (c : Cause) (w : Writer) : Writer :=
  if isWriterCmd cmd ∧ causeKind c ≠ .illegalCommand then { w with phase := .failed c, buf := [] }
  else w

/-- What error entry does to the reader session (R437 step 3, R366). -/
def readerAfterRaise (cmd : Byte) (c : Cause) (r : Reader) : Reader :=
  if cmd = cmdFrRead then { r with fail := some c, pending := [], eos := false } else r

/-- Error entry (R19, R437), the block's one way of taking an exception: the transient state of the
command is abandoned (the decoder's registers; assumption 17), the session of a session command fails,
STATUS takes kind, cause and command code, and the command completes with the error and no results. -/
def raise (cmd : Byte) (c : Cause) (s : State) : State :=
  finish cmd (some c) (.error c)
    (((s.setDec Decoder.reset).setW (writerAfterRaise cmd c s.w)).setR (readerAfterRaise cmd c s.r))

/-! ### Return from an error (R438): a session is used again only after its reset -/

/-- RESET_WRITER's effect on the session (R403). -/
def openWriter (s : State) : State := s.setW Writer.reset

/-- RESET_READER's effect on the session (R404). -/
def openReader (s : State) : State := s.setR Reader.reset

/-! ### The source channel -/

/-- The source's answer to one `SourceRead(k)` (R77) and the state after it. -/
inductive SourceRead where
  | bytes (b : List Byte) (s : State)
  | eof (s : State)
  | ioFail (s : State)
  deriving DecidableEq, Repr

/-- Bytes the source still holds of a run, as its next answer. -/
def restEvent (b : List Byte) (coming : List Config.SourceEvent) : List Config.SourceEvent :=
  match b with
  | [] => coming
  | c :: cs => .data c cs :: coming

/-- The source with the bytes of a run still to give before its other answers. -/
def Source.giveFirst (b : List Byte) (q : Source) : Source :=
  { q with coming := restEvent b q.coming }

/-- The source's next answer and the source after it (R13, R77; assumption 5). -/
def Source.next (q : Source) : Config.SourceEvent × Source :=
  match q.coming with
  | e :: coming => (e, { q with coming := coming })
  | [] =>
    match q.rest with
    | .ends => (.eof, q)
    | .oracle n k => (Config.sourceOracle n k, { q with rest := .oracle n (k + 1) })

/-- `SourceRead(k)`, `k ≥ 1` (R77): at most `k` bytes of the answer's run are given, consumed and counted
in `R.consumed`; the rest of the run stays for the next read. -/
def sourceRead (k : Nat) (s : State) : SourceRead :=
  match s.source.next with
  | (.eof, q) => .eof (s.setSource q)
  | (.ioFail, q) => .ioFail (s.setSource q)
  | (.data b bs, q) =>
    .bytes ((b :: bs).take k)
      ((s.setSource (q.giveFirst ((b :: bs).drop k))).setR
        { s.r with consumed := s.r.consumed + ((b :: bs).take k).length })

/-- The result of `SourceReadExact(k)` (R80) and the state after it. -/
inductive ExactRead where
  | full (b : List Byte) (s : State)
  | short (b : List Byte) (s : State)
  | ioFail (s : State)
  deriving DecidableEq, Repr

/-- The loop of `SourceReadExact` (R80) with `k` bytes still to come and `got` collected; each read gives
at least one byte, so `k` rounds suffice. -/
def sourceReadLoop : Nat → Nat → List Byte → State → ExactRead
  | 0, k, got, s => if k = 0 then .full got s else .short got s
  | fuel + 1, k, got, s =>
    if k = 0 then .full got s
    else
      match sourceRead k s with
      | .ioFail s' => .ioFail s'
      | .eof s' => .short got s'
      | .bytes b s' => sourceReadLoop fuel (k - b.length) (got ++ b) s'

/-- `SourceReadExact(k)` (R80). -/
def sourceReadExact (k : Nat) (s : State) : ExactRead := sourceReadLoop k k [] s

/-! ### The sink channel -/

/-- A step of a writer command that may fail with the state it has reached (R436). -/
inductive Attempt where
  | done (s : State)
  | failed (c : Cause) (s : State)
  deriving DecidableEq, Repr

/-- An answer to a write of `k` bytes: no more than the write holds is accepted (R78). -/
def clipAnswer (k : Nat) : Config.SinkAnswer → Config.SinkAnswer
  | .accept a => .accept (min a k)
  | .ioFail => .ioFail

/-- The sink's answer to a write of `k` bytes and its answers after it (R13, R78; assumption 6). -/
def SinkScript.answer (k : Nat) (q : SinkScript) : Config.SinkAnswer × SinkScript :=
  match q.coming with
  | a :: coming => (clipAnswer k a, { q with coming := coming })
  | [] =>
    match q.rest with
    | .accepts => (.accept k, q)
    | .oracle n i => (clipAnswer k (Config.sinkOracle n i), { q with rest := .oracle n (i + 1) })

/-- The loop of `SinkWriteAll` (R79) on `SinkWrite` (R78): each write appends what the sink accepts, a
write that accepts nothing is `SINK_WRITE_ZERO`. Each round takes at least one byte, so as many rounds as
bytes suffice. -/
def sinkWriteLoop : Nat → List Byte → State → Attempt
  | 0, b, s => if b = [] then .done s else .failed .sinkWriteZero s
  | fuel + 1, b, s =>
    if b = [] then .done s
    else
      match s.sinkScript.answer b.length with
      | (.ioFail, q) => .failed .sinkIo (s.setSinkScript q)
      | (.accept a, q) =>
        if a = 0 then .failed .sinkWriteZero (s.setSinkScript q)
        else sinkWriteLoop fuel (b.drop a) ((s.setSinkScript q).setSink (s.sink ++ b.take a))

/-- `SinkWriteAll(b)` (R79, R320). -/
def sinkWriteAll (b : List Byte) (s : State) : Attempt := sinkWriteLoop b.length b s

/-! ### Delivery -/

/-- FR_READ hands out `min(max, |R.pending|)` bytes (R351, R362). -/
def deliver (max : Word64) (s : State) : State :=
  complete cmdFrRead (.read (s.r.pending.take max.toNat) false)
    (s.setR { s.r with pending := s.r.pending.drop max.toNat, eos := false })

/-- One turn of FR_READ's loop before a chunk is read (R351): pending bytes are delivered, otherwise the
chunk loop goes on. -/
def frLoop (max : Word64) (s : State) : State :=
  if s.r.pending = [] then s.setEngine (.reading max) else deliver max s

/-! ### The hash table -/

/-- Reading an entry; an unlisted one is 0 (R48, R189). -/
def htRead : HashTable → Nat → BitVec 16
  | [], _ => 0
  | (k, v) :: rest, h => if k = h then v else htRead rest h

/-- Writing an entry, keeping the canonical form: an entry 0 is not listed. -/
def htWrite : HashTable → Nat → BitVec 16 → HashTable
  | [], h, v => if v = 0 then [] else [(h, v)]
  | (k, w) :: rest, h, v =>
    if h < k then if v = 0 then (k, w) :: rest else (h, v) :: (k, w) :: rest
    else if h = k then if v = 0 then rest else (h, v) :: rest
    else (k, w) :: htWrite rest h v

/-- The canonical form of a table whose indexes are all above `low` where given. -/
def htWfFrom : Option Nat → HashTable → Bool
  | _, [] => true
  | low, (k, v) :: rest =>
    decide (∀ l ∈ low, l < k) && decide (v ≠ 0) && htWfFrom (some k) rest

/-- The canonical form: indexes strictly rising, no entry 0 (assumption 15). -/
def htWf (t : HashTable) : Bool := htWfFrom none t

/-- A cleared table with the given entries written, indexes below 16384 (R42). -/
def htOfWrites (writes : List (Nat × BitVec 16)) : HashTable :=
  writes.foldl (fun t e => htWrite t (e.1 % 16384) e.2) []

end Sys2Proof.Machine
end

