-- ==== Sys2Proof/Machine/Operands.lean ====
section
/-!
DEFINITION. What the operands of an instruction stand for: the literal and copy operands of a tag
element applied to DST (R245, R249), the size bound (R8, R182) and the register numbers (R38, R400,
R401).
-/
namespace Sys2Proof.Machine

/-! ### Element operands -/

/-- EXEC Literal (R245): append the bytes, which must not pass `L`. -/
def putLiteral (len : Nat) (b dst : List Byte) : Except Cause (List Byte) :=
  if dst.length + b.length > len then .error .overshoot else .ok (dst ++ b)

/-- The byte-serial copy loop (R249): `n` times, the byte `offset` before the end is appended, so bytes
the copy itself wrote are read again. A read at a position that holds no byte gives none (R47). -/
def copyBytes (offset : Nat) : Nat → List Byte → List Byte
  | 0, dst => dst
  | n + 1, dst =>
    if offset ≤ dst.length then
      match dst[dst.length - offset]? with
      | some v => copyBytes offset n (dst ++ [v])
      | none => dst
    else dst

/-- COPY_EXEC (R249): offset 0, offset beyond the output and overshoot are checked in this order before
any byte is written; `offset = d` is valid (90_conflicts.md C1). -/
def copyExec (len offset count : Nat) (dst : List Byte) : Except Cause (List Byte) :=
  if offset = 0 then .error .offsetZero
  else if offset > dst.length then .error .offsetBeyondOutput
  else if dst.length + count > len then .error .overshoot
  else .ok (copyBytes offset count dst)

/-- What an element does to DST under the declared length `len` (R245 to R248). An instruction that is
no element does nothing. -/
def elementEffect (len : Nat) (i : Instr) (dst : List Byte) : Except Cause (List Byte) :=
  match i with
  | .lit b | .litX1 b | .litX2 b | .litX3 b | .litX4 b => putLiteral len b dst
  | .copy1 offset count | .copy2 offset count | .copy4 offset count =>
    copyExec len offset count dst
  | .chunkCompressed _ | .chunkUncompressed _ | .chunkReserved _ _ | .chunkSkip _ _
  | .chunkPad _ | .chunkIdent _
  | .varintEncode _ | .varintDecode _ | .maxCompressLen _ | .compress _ | .decompress _
  | .fwWrite _ | .fwFlush | .fwClose | .frRead _ | .readReg _ | .writeReg _ _
  | .resetWriter | .resetReader | .reset => .ok dst

/-! ### Sizes -/

/-- `bound(n)` (R8, R182). -/
def bound (n : Nat) : Nat := Config.boundConst + n + n / 6

/-- The bound as a 64-bit result (R117); where it does not fit, a free value (assumption 25). -/
def boundResult (n : Word64) : Word64 :=
  if bound n.toNat < 2 ^ 64 then BitVec.ofNat 64 (bound n.toNat) else Config.boundBeyondWidth n

/-- `P_COMPRESSED_CHUNK_MAX` (R11). -/
def compressedChunkMax : Nat := bound Config.chunkMax

/-! ### Register operands -/

/-- The value of a register (R401), or `BAD_REGISTER` (R38). -/
def readRegister (r : Byte) (s : State) : Except Cause Word32 :=
  if r = 0x00 then .ok s.cfgMaxDecode
  else if r = 0x04 then .ok (ctrlWord s.reqIdent)
  else if r = 0x08 then .ok (statusWord s.status)
  else if r = 0x0C then .ok (wstateWord s.w)
  else if r = 0x10 then .ok (rstateWord s.r)
  else .error .badRegister

/-- The state after a register is written (R400), or the cause of the refusal (R38). -/
def writeRegister (r : Byte) (v : Word32) (s : State) : Except Cause State :=
  if r = 0x00 then .ok (s.setCfgMaxDecode v)
  else if r = 0x04 then .ok (s.setReqIdent (v.getLsbD 0))
  else if r = 0x08 ∨ r = 0x0C ∨ r = 0x10 then .error .regReadOnly
  else .error .badRegister

end Sys2Proof.Machine
end

