-- ==== Sys2Proof/Machine/Control.lean ====
section
/-!
DEFINITION. The control commands: WRITE_REG (R400), READ_REG (R401) and the three resets (R402 to R404).
-/
namespace Sys2Proof.Machine

/-- WRITE_REG (R400): a refused write changes no register. -/
def execWriteReg (r : Byte) (v : Word32) (s : State) : StepResult :=
  match writeRegister r v s with
  | .ok s' => .next (complete 0x51 .none s')
  | .error c => .next (raise 0x51 c s)

/-- READ_REG (R401): STATUS reads as it was before this command's own update. -/
def execReadReg (r : Byte) (s : State) : StepResult :=
  match readRegister r s with
  | .ok v => .next (complete 0x50 (.reg v) s)
  | .error c => .next (raise 0x50 c s)

/-- The reset state of the block (R48, R402), the host's side of the interface and the policies as they
were: RESET touches neither the sink nor the source. -/
def resetBlock (s : State) : State :=
  { State.reset with
    commands := s.commands, responses := s.responses, source := s.source,
    sinkScript := s.sinkScript, sink := s.sink, policy := s.policy }

/-- RESET (R402). -/
def execReset (s : State) : StepResult := .next (complete 0x7F .none (resetBlock s))

/-- RESET_WRITER (R403). -/
def execResetWriter (s : State) : StepResult := .next (complete 0x7D .none (openWriter s))

/-- RESET_READER (R404). -/
def execResetReader (s : State) : StepResult := .next (complete 0x7E .none (openReader s))

end Sys2Proof.Machine
end

