-- ==== Sys2Proof/Machine/Checksum.lean ====
section
/-!
DEFINITION. The checksum engine: CRC-32C (R290 to R293) and the mask (R294).
-/
namespace Sys2Proof.Machine

/-- One bit of CRC_STEP (R291): the reflected polynomial is 0x82F63B78 (R290). -/
def crcBit (crc : Word32) : Word32 :=
  if crc.getLsbD 0 then (crc >>> 1) ^^^ 0x82F63B78 else crc >>> 1

/-- `k` bits of CRC_STEP. -/
def crcBits : Nat → Word32 → Word32
  | 0, crc => crc
  | k + 1, crc => crcBits k (crcBit crc)

/-- CRC_STEP (R291). -/
def crcStep (crc : Word32) (b : Byte) : Word32 := crcBits 8 (crc ^^^ b.setWidth 32)

/-- The checksum register after a byte sequence, from its initial value (R292, R293). -/
def crcRegister (b : List Byte) : Word32 := b.foldl crcStep 0xFFFFFFFF

/-- `crc32c(b)` (R292). -/
def crc32c (b : List Byte) : Word32 := crcRegister b ^^^ 0xFFFFFFFF

/-- `mask(c)` (R294). -/
def maskCrc (c : Word32) : Word32 := ((c >>> 15) ||| (c <<< 17)) + 0xA282EAD8

/-- The chunk checksum `chk(u)` (R294). -/
def chk (u : List Byte) : Word32 := maskCrc (crc32c u)

/-- `LE_4(chk(u))`, the checksum field of a data chunk (R295, R296). -/
def chkBytes (u : List Byte) : List Byte := leBytes 4 (chk u).toNat

/-- The checksum register is left with the last chunk's value (R43, R293; assumption 22). -/
def setCrcOf (u : List Byte) (s : State) : State := s.setCrc (crcRegister u)

end Sys2Proof.Machine
end

