-- ==== Sys2Proof/Machine/Varint.lean ====
section
/-!
DEFINITION. The varint unit: the codec (R100, R150, R152) and its two commands.
-/
namespace Sys2Proof.Machine

/-- The loop of VARINT_ENCODE (R150): 7-bit groups, low group first, the continuation bit on all but
the last. Ten rounds suffice for 64 bits. -/
def varintEncodeLoop : Nat → Word64 → List Byte
  | 0, _ => []
  | fuel + 1, n =>
    if n >>> 7 ≠ 0 then (0x80 ||| (n.setWidth 7).setWidth 8) :: varintEncodeLoop fuel (n >>> 7)
    else [(n.setWidth 7).setWidth 8]

/-- `VARINT_ENCODE(n)` (R150). -/
def varintEncode (n : Word64) : List Byte := varintEncodeLoop 10 n

/-- The loop of VARINT_DECODE (R152) at byte `i` with value `n` so far: truncation first, then overflow
at the tenth byte. -/
def varintDecodeLoop (i : Nat) (n : Word64) : List Byte → Except Cause (Word64 × Nat)
  | [] => .error .varintTruncated
  | b :: rest =>
    if i = 9 ∧ b.toNat > 1 then .error .varintOverflow
    else
      let n' := n ||| ((b.setWidth 7).setWidth 64 <<< (7 * i))
      if b.getLsbD 7 = false then .ok (n', i + 1) else varintDecodeLoop (i + 1) n' rest

/-- `VARINT_DECODE(SRC)` (R152): the value and how many bytes it took. -/
def varintDecode (src : List Byte) : Except Cause (Word64 × Nat) := varintDecodeLoop 0 0 src

/-- VARINT_ENCODE (R150). -/
def execVarintEncode (n : Word64) (s : State) : StepResult :=
  .next (complete 0x01 (.bytes (varintEncode n)) s)

/-- VARINT_DECODE (R152). -/
def execVarintDecode (src : List Byte) (s : State) : StepResult :=
  match varintDecode src with
  | .ok (n, k) => .next (complete 0x02 (.varint n (BitVec.ofNat 8 k)) s)
  | .error c => .next (raise 0x02 c s)

end Sys2Proof.Machine
end

