-- ==== Sys2Proof/Machine/Decoder.lean ====
section
/-!
DEFINITION. The block decoder: DECOMPRESS (R240 to R243), the eight elements (R245 to R249), the end
check (R250), and the same decode as a function of the tag stream alone (R251 to R253).
-/
namespace Sys2Proof.Machine

/-! ### The decode loop's errors and elements -/

/-- An error inside a decode loop ends the command that runs it: DECOMPRESS, or the FR_READ of the chunk
(R244, R360). With no decode loop there is no such command. -/
def raiseDecode (c : Cause) (s : State) : StepResult :=
  match s.engine with
  | .decompressing => .next (raise cmdDecompress c s)
  | .decodingChunk _ _ => .next (raise cmdFrRead c s)
  | .idle | .reading _ => .fault .noDecodeInProgress

/-- One element of `k` bytes (R244): EXEC gives the new DST or an error, then `pc <- s + k`. -/
def runElement (k : Nat) (effect : Except Cause (List Byte)) (s : State) : StepResult :=
  match s.engine with
  | .idle | .reading _ => .fault .noDecodeInProgress
  | .decompressing | .decodingChunk _ _ =>
    match effect with
    | .ok dst => .next (s.setDec { s.dec with dst := dst, pc := s.dec.pc + k })
    | .error c => raiseDecode c s

/-- EXEC Literal with the length in the tag (R245). -/
def execLit (b : List Byte) (s : State) : StepResult :=
  runElement (1 + b.length) (putLiteral s.dec.len b s.dec.dst) s

/-- EXEC Literal with a 1-byte length field (R245). -/
def execLitX1 (b : List Byte) (s : State) : StepResult :=
  runElement (2 + b.length) (putLiteral s.dec.len b s.dec.dst) s

/-- EXEC Literal with a 2-byte length field (R245). -/
def execLitX2 (b : List Byte) (s : State) : StepResult :=
  runElement (3 + b.length) (putLiteral s.dec.len b s.dec.dst) s

/-- EXEC Literal with a 3-byte length field (R245; 90_conflicts.md C3). -/
def execLitX3 (b : List Byte) (s : State) : StepResult :=
  runElement (4 + b.length) (putLiteral s.dec.len b s.dec.dst) s

/-- EXEC Literal with a 4-byte length field (R245). -/
def execLitX4 (b : List Byte) (s : State) : StepResult :=
  runElement (5 + b.length) (putLiteral s.dec.len b s.dec.dst) s

/-- EXEC Copy1 (R246). -/
def execCopy1 (offset len : Nat) (s : State) : StepResult :=
  runElement 2 (copyExec s.dec.len offset len s.dec.dst) s

/-- EXEC Copy2 (R247). -/
def execCopy2 (offset len : Nat) (s : State) : StepResult :=
  runElement 3 (copyExec s.dec.len offset len s.dec.dst) s

/-- EXEC Copy4 (R248). -/
def execCopy4 (offset len : Nat) (s : State) : StepResult :=
  runElement 5 (copyExec s.dec.len offset len s.dec.dst) s

/-! ### DECOMPRESS -/

/-- READ_HEADER and CHECK_LENGTH of DECOMPRESS (R241, R242): the declared length and the header's size. -/
def decompressHeader (cap : Word32) (src : List Byte) : Except Cause (Nat × Nat) :=
  match varintDecode src with
  | .error c => .error c
  | .ok (n, h) =>
    if n.toNat > Config.maxBlockLen then .error .declaredLengthOverMax
    else if n.toNat > cap.toNat then .error .declaredLengthOverCeiling
    else .ok (n.toNat, h)

/-- ALLOC and `pc <- h` (R240, R243): a decode of `src` starts with no byte of DST written. -/
def startDecode (src : List Byte) (len h : Nat) (s : State) : State :=
  s.setDec { src := src, pc := h, len := len, dst := [] }

/-- DECOMPRESS (R240): header and length checks, then the decode loop runs, one element a step. -/
def execDecompress (src : List Byte) (s : State) : StepResult :=
  match decompressHeader s.cfgMaxDecode src with
  | .error c => .next (raise cmdDecompress c s)
  | .ok (len, h) => .next ((startDecode src len h s).setEngine .decompressing)

/-! ### The decode as a function -/

/-- DECODE_LOOP and END_CHECK (R244, R250) as a function: the bytes from the cursor on, with `dst`
written so far. Each element has at least one byte, so as many rounds as bytes suffice. -/
def decodeLoop (len : Nat) : Nat → List Byte → List Byte → Except Cause (List Byte)
  | 0, bytes, dst =>
    if bytes = [] then if dst.length = len then .ok dst else .error .lengthShort
    else .error .tagTruncated
  | fuel + 1, bytes, dst =>
    if bytes = [] then if dst.length = len then .ok dst else .error .lengthShort
    else
      match decodeElem bytes with
      | .error c => .error c
      | .ok (i, k) =>
        match elementEffect len i dst with
        | .error c => .error c
        | .ok dst' => decodeLoop len fuel (bytes.drop k) dst'

/-- The result of DECOMPRESS as a function of the operand and the cap (R253). -/
def decompressed (cap : Word32) (src : List Byte) : Except Cause (List Byte) :=
  match decompressHeader cap src with
  | .error c => .error c
  | .ok (len, h) => decodeLoop len src.length (src.drop h) []

end Sys2Proof.Machine
end

