-- ==== Sys2Proof/Machine/Encoder.lean ====
section
/-!
DEFINITION. The block encoder: the tag writer (R200 to R205), the reference policy REF (R185 to R197),
the conformance of other policies (R181, R183), COMPRESS (R180) and MAX_COMPRESS_LEN (R182).
-/
namespace Sys2Proof.Machine

/-! ### The tag writer -/

/-- EMIT_PIECE (R204). -/
def copyPiece (offset len : Nat) : Instr :=
  if offset > 65535 then .copy4 offset len else .copy2 offset len

/-- The last piece of EMIT_COPY (R201 to R203, R205). -/
def lastPiece (offset len : Nat) : Instr :=
  if len ≤ 11 ∧ offset ≤ 2047 then .copy1 offset len else copyPiece offset len

/-- The loop of EMIT_COPY (R205): 64-byte pieces while 68 or more remain, then a 60-byte piece when more
than 64 remain. Each round takes bytes, so as many rounds as bytes suffice. -/
def emitCopyLoop (offset : Nat) : Nat → Nat → List Instr
  | 0, len => [lastPiece offset len]
  | fuel + 1, len =>
    if len ≥ 68 then copyPiece offset 64 :: emitCopyLoop offset fuel (len - 64)
    else if len > 64 then [copyPiece offset 60, lastPiece offset (len - 60)]
    else [lastPiece offset len]

/-- `EMIT_COPY(off, len)` (R205), also the `COPY` pseudo-instruction (R120). -/
def emitCopy (offset len : Nat) : List Instr := emitCopyLoop offset len len

/-- The bytes of an element sequence. -/
def encodeElems (is : List Instr) : List Byte := is.flatMap encodeElem

/-! ### REF: the match finder -/

/-- The loop of TABLE_PARAMS (R187); the size doubles at most 6 times. -/
def tableParamsLoop (n : Nat) : Nat → Nat → Nat → Nat × Nat
  | 0, size, shift => (size, shift)
  | fuel + 1, size, shift =>
    if size < 16384 ∧ size < n then tableParamsLoop n fuel (size * 2) (shift - 1)
    else (size, shift)

/-- TABLE_PARAMS (R187): table size and hash shift for a sub-block of `n` bytes. -/
def tableParams (n : Nat) : Nat × Nat := tableParamsLoop n 6 256 24

/-- The hash of a shingle value (R188). -/
def shingleHash (shift x : Nat) : Nat := x * 0x1E35A7BD % 2 ^ 32 / 2 ^ shift

/-- `load32(B, p)` (R190), a shingle of 4 bytes (R10). -/
def load32 (b : List Byte) (p : Nat) : Nat := leValue ((b.drop p).take Config.shingle)

/-- `load64(B, p)` (R190). -/
def load64 (b : List Byte) (p : Nat) : Nat := leValue ((b.drop p).take 8)

/-- How many bytes two positions of a sub-block have in common, given the bytes from each on (R194). -/
def commonLength : List Byte → List Byte → Nat
  | x :: xs, y :: ys => if x = y then commonLength xs ys + 1 else 0
  | _, _ => 0

/-- DONE (R197): the bytes after the last copy, as one literal. -/
def refDone (b : List Byte) (r : EncoderRegs) : List Instr :=
  if r.nextEmit < b.length then [literalInstr (b.drop r.nextEmit)] else []

/-- Where REF_BLOCK's loop stands (R191): at SEARCH with the next probe position, or at MATCH. -/
inductive RefLabel where
  | search (sNext : Nat)
  | found
  deriving DecidableEq, Repr

/-- The registers at SEARCH with the probe at `sNext` (R191, R192): the cursor and the probe distance
have moved; the position after it is the second component. -/
def refProbe (sNext : Nat) (r : EncoderRegs) : EncoderRegs × Nat :=
  ({ r with s := sNext, skip := r.skip + r.skip / 32 }, sNext + r.skip / 32)

/-- The registers after the candidate is read, the position recorded and the next hash taken (R192). -/
def refRecord (b : List Byte) (sNext : Nat) (r : EncoderRegs) : EncoderRegs :=
  { r with
    cand := (htRead r.ht r.nextHash).toNat
    ht := htWrite r.ht r.nextHash (BitVec.ofNat 16 r.s)
    nextHash := shingleHash r.shift (load32 b sNext) }

/-- The match length at `s` against `cand`: 4 bytes, then as far as the bytes agree (R194). -/
def refMatchLength (b : List Byte) (r : EncoderRegs) : Nat :=
  Config.shingle + commonLength (b.drop (r.s + Config.shingle)) (b.drop (r.cand + Config.shingle))

/-- The registers after a copy of `len` bytes (R195). -/
def refAfterCopy (len : Nat) (r : EncoderRegs) : EncoderRegs :=
  { r with s := r.s + len, nextEmit := r.s + len }

/-- The post-match table update (R196): `s - 1` is recorded, then the candidate for `s` is read and `s`
recorded. `x` is `load64(B, s - 1)`. -/
def refPostMatch (x : Nat) (r : EncoderRegs) : EncoderRegs :=
  let ht1 := htWrite r.ht (shingleHash r.shift (x % 2 ^ 32)) (BitVec.ofNat 16 (r.s - 1))
  let hc := shingleHash r.shift (x / 2 ^ 8 % 2 ^ 32)
  { r with cand := (htRead ht1 hc).toNat, ht := htWrite ht1 hc (BitVec.ofNat 16 r.s) }

/-- The registers when the search resumes at `s + 1` with the probe distance reset (R191 OUTER, R196). -/
def refResume (x : Nat) (r : EncoderRegs) : EncoderRegs :=
  { r with nextHash := shingleHash r.shift (x / 2 ^ 16 % 2 ^ 32), s := r.s + 1, skip := 32 }

/-- The loop of REF_BLOCK (R191), with the elements emitted so far. Each round moves the cursor forward,
so twice as many rounds as bytes suffice. -/
def refLoop (b : List Byte) : Nat → RefLabel → EncoderRegs → List Instr → List Instr × EncoderRegs
  | 0, _, r, out => (out ++ refDone b r, r)
  | fuel + 1, .search sNext, r, out =>
    let r1 := (refProbe sNext r).1
    let sNext1 := (refProbe sNext r).2
    if sNext1 > r1.sLimit then (out ++ refDone b r1, r1)
    else
      let r2 := refRecord b sNext1 r1
      if load32 b r2.s ≠ load32 b r2.cand then refLoop b fuel (.search sNext1) r2 out
      else
        refLoop b fuel .found r2
          (out ++ [literalInstr ((b.drop r2.nextEmit).take (r2.s - r2.nextEmit))])
  | fuel + 1, .found, r, out =>
    let len := refMatchLength b r
    let out1 := out ++ emitCopy (r.s - r.cand) len
    let r1 := refAfterCopy len r
    if r1.s ≥ r1.sLimit then (out1 ++ refDone b r1, r1)
    else
      let x := load64 b (r1.s - 1)
      let r2 := refPostMatch x r1
      if x / 2 ^ 8 % 2 ^ 32 = load32 b r2.cand then refLoop b fuel .found r2 out1
      else refLoop b fuel (.search (r2.s + 1)) (refResume x r2) out1

/-- The registers at the start of a sub-block of `n ≥ 17` bytes (R187, R189, R191). -/
def refStart (b : List Byte) (r : EncoderRegs) : EncoderRegs :=
  { r with
    size := (tableParams b.length).1, shift := (tableParams b.length).2, ht := [],
    sLimit := b.length - 15, nextEmit := 0, s := 1, skip := 32,
    nextHash := shingleHash (tableParams b.length).2 (load32 b 1) }

/-- `REF_BLOCK(B)` (R186, R191): the elements of one sub-block and the registers after it. -/
def refBlock (b : List Byte) (r : EncoderRegs) : List Instr × EncoderRegs :=
  if b.length < 17 then ([literalInstr b], r)
  else refLoop b (2 * b.length) (.search 1) (refStart b r) []

/-- REF's sub-blocks (R185): 65536 bytes each but the last, each encoded on its own. -/
def refBlocks : Nat → List Byte → EncoderRegs → List Instr × EncoderRegs
  | 0, _, r => ([], r)
  | fuel + 1, src, r =>
    if src = [] then ([], r)
    else
      let first := refBlock (src.take 65536) r
      let others := refBlocks fuel (src.drop 65536) first.2
      (first.1 ++ others.1, others.2)

/-- REF's elements for an input (R185). -/
def refElems (src : List Byte) (r : EncoderRegs) : List Instr × EncoderRegs :=
  refBlocks src.length src r

/-! ### Other policies -/

/-- The elements of a body, or a truncation (R101, R112). -/
def parseElems : Nat → List Byte → Except Cause (List Instr)
  | 0, bytes => if bytes = [] then .ok [] else .error .tagTruncated
  | fuel + 1, bytes =>
    if bytes = [] then .ok []
    else
      match decodeElem bytes with
      | .error c => .error c
      | .ok (i, k) =>
        match parseElems fuel (bytes.drop k) with
        | .error c => .error c
        | .ok is => .ok (i :: is)

/-- The raw-format stream of a body (R101, R180). -/
def rawStream (src body : List Byte) : List Byte :=
  varintEncode (BitVec.ofNat 64 src.length) ++ body

/-- The body with the whole input as one literal, which always conforms. -/
def literalBody (src : List Byte) : List Byte :=
  if src = [] then [] else encodeElem (literalInstr src)

/-- The conformance conditions of R181 for one input: the stream decodes to the input (which bounds every
offset), meets the bound, and its body is made of elements; and R183's conclusion, that an input of at
most one byte has the one body the rule gives (assumption 8). -/
def conforms (src body : List Byte) : Bool :=
  decide (decompressed 0xFFFFFFFF (rawStream src body) = .ok src)
    && decide ((rawStream src body).length ≤ bound src.length)
    && (parseElems body.length body).isOk
    && decide (src.length ≤ 1 → body = literalBody src)

/-- The body of a policy other than REF: what the free policy proposes where that conforms, the one
literal where it does not (assumption 8). -/
def otherBody (n : Nat) (src : List Byte) : List Byte :=
  if conforms src (Config.otherBody n src) then Config.otherBody n src else literalBody src

/-- The encoder registers after a policy other than REF: free values of their widths (R42,
assumption 18). -/
def otherRegs (n : Nat) (src : List Byte) : EncoderRegs :=
  let v := Config.otherRegister n src
  { ht := htOfWrites (Config.otherHashTable n src)
    size := v 0 % 2 ^ 15, shift := v 1 % 2 ^ 5, s := v 2 % 2 ^ 17, nextEmit := v 3 % 2 ^ 17
    cand := v 4 % 2 ^ 16, skip := v 5 % 2 ^ 32, nextHash := v 6 % 2 ^ 14, sLimit := v 7 % 2 ^ 17 }

/-- `EncoderPolicy.body(SRC)` (R13, R180), a function of the input alone (R184), and the encoder
registers after it. -/
def encoderBody (p : Config.EncoderChoice) (src : List Byte) (r : EncoderRegs) :
    List Byte × EncoderRegs :=
  match p with
  | .ref => (encodeElems (refElems src r).1, (refElems src r).2)
  | .other n => (otherBody n src, otherRegs n src)

/-! ### The commands -/

/-- The output of COMPRESS on an input within the limit, and the encoder registers after it (R180). -/
def compressed (p : Config.EncoderChoice) (src : List Byte) (r : EncoderRegs) :
    List Byte × EncoderRegs :=
  (rawStream src (encoderBody p src r).1, (encoderBody p src r).2)

/-- COMPRESS (R180). -/
def execCompress (src : List Byte) (s : State) : StepResult :=
  if src.length > Config.maxBlockLen then .next (raise 0x11 .encodeInputTooLarge s)
  else
    .next (complete 0x11 (.bytes (compressed s.policy.encoder src s.enc).1)
      (s.setEnc (compressed s.policy.encoder src s.enc).2))

/-- MAX_COMPRESS_LEN (R182): the bound. Above the limit R182 raises, and R430 and R432 say the command
never does: the block does what its reading says (assumption 25). -/
def execMaxCompressLen (n : Word64) (s : State) : StepResult :=
  if n.toNat > Config.maxBlockLen ∧ s.policy.oversize = .refused then
    .next (raise 0x10 .encodeInputTooLarge s)
  else .next (complete 0x10 (.bound (boundResult n)) s)

end Sys2Proof.Machine
end

