-- ==== Sys2Proof/Machine/Writer.lean ====
section
/-!
DEFINITION. The frame writer: the session entry check (R310), EMIT_CHUNK (R314 to R320), the fallback
policy (R317, R318) and FW_WRITE, FW_FLUSH, FW_CLOSE (R311, R321, R322).
-/
namespace Sys2Proof.Machine

/-! ### Chunks -/

/-- The stream-identifier payload `"sNaPpY"` (R116). -/
def identPayload : List Byte := [0x73, 0x4e, 0x61, 0x50, 0x70, 0x59]

/-- The stream-identifier chunk (R116). -/
def identChunk : List Byte := chunkHeader 0xFF 6 ++ identPayload

/-- `FallbackPolicy` (R317): a chunk of `raw` bytes that compresses to `comp` is sent uncompressed. REF
keeps the compressed form only below raw - raw/8 (R318); another policy is free where the compressed
form is smaller (assumption 9). -/
def sendsUncompressed (p : Config.FallbackChoice) (raw comp : Nat) : Bool :=
  match p with
  | .ref => decide (comp ≥ raw - raw / 8)
  | .other n => decide (comp ≥ raw) || Config.otherFallback n raw comp

/-- The data chunk for the raw bytes `u` with compressed form `z` (R115, R295, R319). -/
def dataChunk (p : Config.FallbackChoice) (u z : List Byte) : List Byte :=
  if sendsUncompressed p u.length z.length then chunkHeader 0x01 (4 + u.length) ++ chkBytes u ++ u
  else chunkHeader 0x00 (4 + z.length) ++ chkBytes u ++ z

/-- The identifier chunk before the session's first data chunk (R313): `W.ident_sent` only once it is
written (R314). -/
def sendIdent (s : State) : Attempt :=
  if s.w.identSent then .done s
  else
    match sinkWriteAll identChunk s with
    | .failed c s' => .failed c s'
    | .done s' => .done (s'.setW { s'.w with identSent := true })

/-- The data chunk of `u` (R314 to R316, R319): checksum, compression, choice of form, one
`SinkWriteAll`. -/
def sendData (u : List Byte) (s : State) : Attempt :=
  sinkWriteAll (dataChunk s.policy.fallback u (compressed s.policy.encoder u s.enc).1)
    ((setCrcOf u s).setEnc (compressed s.policy.encoder u s.enc).2)

/-- EMIT_CHUNK (R314): the buffer is emptied, then the identifier if none was sent, then the data
chunk. -/
def emitChunk (s : State) : Attempt :=
  match sendIdent (s.setW { s.w with buf := [] }) with
  | .failed c s' => .failed c s'
  | .done s' => sendData s.w.buf s'

/-! ### The session -/

/-- `W_ENTRY(cmd)` (R310), then the command's own steps in an open session. -/
def writerEntry (cmd : Byte) (s : State) (body : State → State) : StepResult :=
  match s.w.phase with
  | .failed c => .next (raise cmd c s)
  | .closed =>
    if cmd = cmdFwClose then .next (complete cmd .none s) else .next (raise cmd .sessionClosed s)
  | .opened => .next (body s)

/-- The end of a writer command: `OK` with its result, or error entry from the state reached (R324). -/
def endWriter (cmd : Byte) (r : Results) : Attempt → State
  | .done s => complete cmd r s
  | .failed c s => raise cmd c s

/-- The loop of FW_WRITE (R311): byte by byte into the buffer, a chunk exactly when it is full (R312). -/
def writeBytes : List Byte → State → Attempt
  | [], s => .done s
  | b :: rest, s =>
    let s1 := s.setW { s.w with buf := s.w.buf ++ [b] }
    if s1.w.buf.length = Config.chunkMax then
      match emitChunk s1 with
      | .done s2 => writeBytes rest s2
      | .failed c s2 => .failed c s2
    else writeBytes rest s1

/-- The buffered bytes go out as a chunk, if there are any (R321, R322). -/
def flushBuffer (s : State) : Attempt :=
  if s.w.buf.length > 0 then emitChunk s else .done s

/-- FW_CLOSE's last step on success (R322). -/
def closeWriter : Attempt → Attempt
  | .done s => .done (s.setW { s.w with phase := .closed })
  | .failed c s => .failed c s

/-- FW_WRITE (R311): the result is always the operand's length. -/
def execFwWrite (src : List Byte) (s : State) : StepResult :=
  writerEntry cmdFwWrite s fun s1 =>
    endWriter cmdFwWrite (.count (BitVec.ofNat 64 src.length)) (writeBytes src s1)

/-- FW_FLUSH (R321). -/
def execFwFlush (s : State) : StepResult :=
  writerEntry cmdFwFlush s fun s1 => endWriter cmdFwFlush .none (flushBuffer s1)

/-- FW_CLOSE (R322). -/
def execFwClose (s : State) : StepResult :=
  writerEntry cmdFwClose s fun s1 => endWriter cmdFwClose .none (closeWriter (flushBuffer s1))

end Sys2Proof.Machine
end

