-- ==== Sys2Proof/Machine/Reader.lean ====
section
/-!
DEFINITION. The frame reader: FR_READ (R351), the header checks (R354, R355), the payload (R361), the
six chunk types (R356 to R360) and the end of a decode (R250, R254, R360).
-/
namespace Sys2Proof.Machine

/-! ### FR_READ -/

/-- FR_READ (R351): the sticky error first, `max = 0` reads nothing, then its loop begins. -/
def execFrRead (max : Word64) (s : State) : StepResult :=
  match s.r.fail with
  | some c => .next (raise cmdFrRead c s)
  | none =>
    if max = 0 then .next (complete cmdFrRead (.read [] false) s) else .next (frLoop max s)

/-- A clean end of stream (R351, R364). -/
def endOfStream (s : State) : State :=
  complete cmdFrRead (.read [] true) (s.setR { s.r with eos := true })

/-! ### Chunks -/

/-- CHECK_HEADER (R354, R355): the cause of the first check that fails. -/
def checkHeader (ty : Byte) (len : Nat) (s : State) : Option Cause :=
  if s.reqIdent = true ∧ s.r.identSeen = false ∧ ty ≠ 0xFF then some .streamIdentMissing
  else if 0x02 ≤ ty.toNat ∧ ty.toNat ≤ 0x7F then some .reservedChunkType
  else if (ty = 0x00 ∨ ty = 0x01) ∧ len < 4 then some .chunkTooShort
  else if ty = 0x01 ∧ len - 4 > Config.chunkMax then some .chunkTooLong
  else if ty = 0x00 ∧ len - 4 > compressedChunkMax then some .chunkTooLong
  else if ty = 0xFF ∧ len ≠ 6 then some .streamIdentBad
  else none

/-- CHECK_HEADER, READ_PAYLOAD and DISPATCH of one chunk (R352, R361): header checks before any payload
byte, the whole payload before any of it is looked at. -/
def runChunk (ty : Byte) (len : Nat) (s : State)
    (dispatch : Word64 → List Byte → State → State) : StepResult :=
  match s.engine with
  | .reading max =>
    match checkHeader ty len s with
    | some c => .next (raise cmdFrRead c s)
    | none =>
      match sourceReadExact len s with
      | .ioFail s' => .next (raise cmdFrRead .sourceIo s')
      | .short _ s' => .next (raise cmdFrRead .truncatedStream s')
      | .full p s' => .next (dispatch max p s')
  | .idle | .decompressing | .decodingChunk _ _ => .fault .noReadInProgress

/-- The checksum comparison (R296) and, when it holds, `R.pending <- u` (R359, R360). -/
def acceptData (stored u : List Byte) (s : State) : State :=
  if stored ≠ chkBytes u then raise cmdFrRead .checksum (setCrcOf u s)
  else (setCrcOf u s).setR { s.r with pending := u }

/-- DECODE_CHUNK's header (R241, R254): the declared length and the header's size. -/
def chunkDecodeHeader (data : List Byte) : Except Cause (Nat × Nat) :=
  match varintDecode data with
  | .error c => .error c
  | .ok (n, h) =>
    if n.toNat > Config.chunkMax then .error .chunkDecodedTooLong else .ok (n.toNat, h)

/-- Compressed-data chunk (R360): the decode of the data starts, one element a step; the stored checksum
waits for its end. -/
def execChunkCompressed (len : Nat) (s : State) : StepResult :=
  runChunk 0x00 len s fun max p s1 =>
    match chunkDecodeHeader (p.drop 4) with
    | .error c => raise cmdFrRead c s1
    | .ok (n, h) => (startDecode (p.drop 4) n h s1).setEngine (.decodingChunk max (p.take 4))

/-- Uncompressed-data chunk (R359). -/
def execChunkUncompressed (len : Nat) (s : State) : StepResult :=
  runChunk 0x01 len s fun _ p s1 => acceptData (p.take 4) (p.drop 4) s1

/-- Reserved unskippable chunk (R356). -/
def execChunkReserved (ty : Byte) (len : Nat) (s : State) : StepResult :=
  runChunk ty len s fun _ _ s1 => raise cmdFrRead .reservedChunkType s1

/-- Skippable chunk (R357): the payload is read and discarded. -/
def execChunkSkip (ty : Byte) (len : Nat) (s : State) : StepResult :=
  runChunk ty len s fun _ _ s1 => s1

/-- Padding chunk (R357): the payload is read and discarded. -/
def execChunkPad (len : Nat) (s : State) : StepResult :=
  runChunk 0xFE len s fun _ _ s1 => s1

/-- Stream-identifier chunk (R358). -/
def execChunkIdent (len : Nat) (s : State) : StepResult :=
  runChunk 0xFF len s fun _ p s1 =>
    if p ≠ identPayload then raise cmdFrRead .streamIdentBad s1
    else s1.setR { s1.r with identSeen := true }

/-! ### The end of a decode -/

/-- END_CHECK (R250), then what the decode was for: DECOMPRESS returns the bytes (R240, R251); a
compressed chunk's bytes meet their checksum and FR_READ's loop goes on (R360). -/
def endCheck (s : State) : StepResult :=
  if s.dec.dst.length ≠ s.dec.len then raiseDecode .lengthShort s
  else
    match s.engine with
    | .decompressing => .next (complete cmdDecompress (.bytes s.dec.dst) s)
    | .decodingChunk max stored =>
      .next (acceptData stored s.dec.dst (s.setEngine (.reading max)))
    | .idle | .reading _ => .fault .noDecodeInProgress

end Sys2Proof.Machine
end

