-- ==== Sys2Proof/Machine/Dispatch.lean ====
section
/-!
DEFINITION. The dispatch: one arm per instruction.
-/
namespace Sys2Proof.Machine

def exec (i : Instr) (s : State) : Host.Outcome State Fault Refusal :=
  match i with
  | .lit b => Sys2Proof.Machine.execLit b s
  | .litX1 b => Sys2Proof.Machine.execLitX1 b s
  | .litX2 b => Sys2Proof.Machine.execLitX2 b s
  | .litX3 b => Sys2Proof.Machine.execLitX3 b s
  | .litX4 b => Sys2Proof.Machine.execLitX4 b s
  | .copy1 offset len => Sys2Proof.Machine.execCopy1 offset len s
  | .copy2 offset len => Sys2Proof.Machine.execCopy2 offset len s
  | .copy4 offset len => Sys2Proof.Machine.execCopy4 offset len s
  | .chunkCompressed len => Sys2Proof.Machine.execChunkCompressed len s
  | .chunkUncompressed len => Sys2Proof.Machine.execChunkUncompressed len s
  | .chunkReserved ty len => Sys2Proof.Machine.execChunkReserved ty len s
  | .chunkSkip ty len => Sys2Proof.Machine.execChunkSkip ty len s
  | .chunkPad len => Sys2Proof.Machine.execChunkPad len s
  | .chunkIdent len => Sys2Proof.Machine.execChunkIdent len s
  | .varintEncode n => Sys2Proof.Machine.execVarintEncode n s
  | .varintDecode src => Sys2Proof.Machine.execVarintDecode src s
  | .maxCompressLen n => Sys2Proof.Machine.execMaxCompressLen n s
  | .compress src => Sys2Proof.Machine.execCompress src s
  | .decompress src => Sys2Proof.Machine.execDecompress src s
  | .fwWrite src => Sys2Proof.Machine.execFwWrite src s
  | .fwFlush => Sys2Proof.Machine.execFwFlush s
  | .fwClose => Sys2Proof.Machine.execFwClose s
  | .frRead max => Sys2Proof.Machine.execFrRead max s
  | .readReg r => Sys2Proof.Machine.execReadReg r s
  | .writeReg r v => Sys2Proof.Machine.execWriteReg r v s
  | .resetWriter => Sys2Proof.Machine.execResetWriter s
  | .resetReader => Sys2Proof.Machine.execResetReader s
  | .reset => Sys2Proof.Machine.execReset s

end Sys2Proof.Machine
end

