-- ==== Sys2Proof/Machine/Fetch.lean ====
section
/-!
DEFINITION. Where the next instruction comes from (R44): the host's next command when the engine is
idle, the tag stream during a decode (R244), the source during FR_READ (R352); and the engine's own
steps, which run no instruction: END_CHECK, delivery, the end of a stream (assumption 1).
-/
namespace Sys2Proof.Machine

/-- What a step does: run an instruction from the state after its fetch, or end as given. -/
inductive Fetched where
  | run (i : Instr) (s : State)
  | done (r : StepResult)
  deriving Repr

/-- The engine is idle: it takes the host's next command (R30); an unassigned code is refused (R405).
With no command it waits, and nothing changes (assumption 2). -/
def fetchCommand (s : State) : Fetched :=
  match s.commands with
  | [] => .done (.next s)
  | c :: rest =>
    match decodeCommand c with
    | .ok i => .run i (s.setCommands rest)
    | .error e => .done (.next (raise c.code e (s.setCommands rest)))

/-- One turn of DECODE_LOOP (R244): the element at the cursor, or END_CHECK at the end of `SRC`. -/
def fetchElement (s : State) : Fetched :=
  if s.dec.pc < s.dec.src.length then
    match decodeElem (s.dec.src.drop s.dec.pc) with
    | .ok (i, _) => .run i s
    | .error c => .done (raiseDecode c s)
  else .done (endCheck s)

/-- One turn of FR_READ's loop (R351, R352): pending bytes are delivered; otherwise the next header is
read from the source, whose end before it is a clean end of stream (R364). -/
def fetchChunk (max : Word64) (s : State) : Fetched :=
  if s.r.pending ≠ [] then .done (.next (deliver max s))
  else
    match sourceReadExact 4 s with
    | .ioFail s' => .done (.next (raise cmdFrRead .sourceIo s'))
    | .short got s' =>
      if got = [] then .done (.next (endOfStream s'))
      else .done (.next (raise cmdFrRead .truncatedStream s'))
    | .full hdr s' =>
      match decodeChunk hdr with
      | .ok i => .run i s'
      | .error c => .done (.next (raise cmdFrRead c s'))

/-- The next instruction, by what the engine is doing. -/
def fetch (s : State) : Fetched :=
  match s.engine with
  | .idle => fetchCommand s
  | .decompressing => fetchElement s
  | .decodingChunk _ _ => fetchElement s
  | .reading max => fetchChunk max s

/-- The state with an encoded instruction placed where the next step fetches it (assumption 14): a
command first in the host's queue with the engine idle; an element as the whole tag stream of a running
DECOMPRESS; a chunk header, followed by its payload of zeros, first in the source of a running FR_READ
with nothing pending. -/
def placeEncoded (e : Encoded) (s : State) : State :=
  match e with
  | .command c => (s.setEngine .idle).setCommands (c :: s.commands)
  | .element b => (s.setEngine .decompressing).setDec { s.dec with src := b, pc := 0 }
  | .chunk b =>
    ((s.setEngine (.reading 1)).setR { s.r with pending := [] }).setSource
      (s.source.giveFirst (b ++ List.replicate (leValue (b.drop 1)) 0))

end Sys2Proof.Machine
end

