-- ==== Sys2Proof/Machine/Step.lean ====
section
/-!
DEFINITION. One step of the engine, and the placing of an instruction for the next step.
-/
namespace Sys2Proof.Machine

/-- One step: fetch, then run the instruction (R30, R44, R244, R352). -/
def step (s : State) : Host.Outcome State Fault Refusal :=
  match fetch s with
  | .run i s' => exec i s'
  | .done r => r

/-- The state with a word of the opcode table placed where the next step fetches (assumption 14). -/
def State.withFetchWord (s : State) (nbits w : Nat) : State :=
  placeEncoded (tableEncoded nbits w) s

end Sys2Proof.Machine
end

