-- ==== Sys2Proof/Safety.lean ====
section
/-!
DEFINITION. What a safe run of the block is: a step always answers a next state, and the states it
reaches keep the bounds and session rules of 10_state.md.
-/
namespace Sys2Proof.Machine

/-- The causes that can fail a writer session (R432, R324). -/
def writerCause (c : Cause) : Bool := decide (c = .sinkIo ∨ c = .sinkWriteZero)

/-- The causes that can fail a reader session (R432, R366). -/
def readerCause (c : Cause) : Bool :=
  decide (causeKind c = .corruptInput ∨ causeKind c = .checksumMismatch ∨ c = .sourceIo)

/-- The writer session between commands (R39, R312, R322, R324): a full buffer has been emitted; a closed
or failed session holds no bytes; only sink errors fail it. -/
def writerOk (w : Writer) : Bool :=
  match w.phase with
  | .opened => decide (w.buf.length < Config.chunkMax)
  | .closed => decide (w.buf = [])
  | .failed c => decide (w.buf = []) && writerCause c

/-- The reader session (R40, R366): at most one chunk pending; a failed session holds no bytes and is not
at the end of a stream. -/
def readerOk (r : Reader) : Bool :=
  decide (r.pending.length ≤ Config.chunkMax)
    && match r.fail with
       | none => true
       | some c => decide (r.pending = [] ∧ r.eos = false) && readerCause c

/-- The decoder's registers during a decode (R41, R250): the cursor is in `SRC`, at most `L` bytes are
written, and `L` is within its limit. -/
def decoderOk (limit : Nat) (d : Decoder) : Bool :=
  decide (d.pc ≤ d.src.length ∧ d.dst.length ≤ d.len ∧ d.len ≤ limit)

/-- The end-of-stream flag outside FR_READ (R37, R45): nothing is pending at the end of a stream. -/
def eosOk (r : Reader) : Bool := decide (r.eos = true → r.pending = [])

/-- What the engine's activity says of the rest of the state (R240, R242, R254, R351, R360). -/
def engineOk (s : State) : Bool :=
  match s.engine with
  | .idle => eosOk s.r
  | .decompressing => eosOk s.r && decoderOk Config.maxBlockLen s.dec
  | .reading max => decide (max ≠ 0 ∧ s.r.fail = none)
  | .decodingChunk max stored =>
    decide (max ≠ 0 ∧ s.r.fail = none ∧ s.r.pending = [] ∧ stored.length = 4)
      && decoderOk Config.chunkMax s.dec

/-- The invariant of the block: sessions, engine and decoder are as the rules leave them. -/
def State.ok (s : State) : Bool := writerOk s.w && readerOk s.r && engineOk s

/-- The hash table is in canonical form and no larger than the block's (R42). -/
def htOk (t : HashTable) : Bool := htWf t && t.all fun e => decide (e.1 < 16384)

/-- A step from the state answers a next state. -/
def Steps (s : State) : Prop := ∃ t, step s = .next t

end Sys2Proof.Machine
end

