-- ==== Sys2Proof/Certificates/Slice0/Obligations.lean ====
section
/-!
DEFINITION. The statements about the block, each taken from rules of spec/; first the words they share.
-/
namespace Sys2Proof.Spec
open Sys2Proof.Machine

/-! ### Completion and frames -/

/-- The host's queue, the source, the sink and the policies are as they were. -/
def sameChannels (s t : State) : Prop :=
  t.commands = s.commands ∧ t.source = s.source ∧ t.sinkScript = s.sinkScript ∧ t.sink = s.sink ∧
    t.policy = s.policy

/-- The configuration registers are as they were. -/
def sameConfig (s t : State) : Prop := t.cfgMaxDecode = s.cfgMaxDecode ∧ t.reqIdent = s.reqIdent

/-- The encoder's registers, HT among them, and the checksum register are as they were. -/
def sameEncoder (s t : State) : Prop := t.enc = s.enc ∧ t.crc = s.crc

/-- Command `cmd` has completed with `OK` and results (R118, R406): the response is given, STATUS reads
KIND 0, CAUSE 0 and the command code, and the engine is idle. -/
def completedOk (cmd : Byte) (res : Results) (s t : State) : Prop :=
  t.engine = .idle ∧ t.responses = s.responses ++ [.ok res] ∧
    statusWord t.status = BitVec.ofNat 32 (cmd.toNat * 2 ^ 16)

/-- Command `cmd` has completed with an error (R118, R406): STATUS reads its kind, its cause and the
command code. -/
def completedError (cmd : Byte) (c : Cause) (s t : State) : Prop :=
  t.engine = .idle ∧ t.responses = s.responses ++ [.error c] ∧
    statusWord t.status
      = BitVec.ofNat 32 (kindCode (causeKind c) + causeCode c * 2 ^ 8 + cmd.toNat * 2 ^ 16)

/-- A command completed with `OK` and changed nothing but STATUS. -/
def oneShotOk (cmd : Byte) (res : Results) (s t : State) : Prop :=
  completedOk cmd res s t ∧ sameConfig s t ∧ t.w = s.w ∧ t.r = s.r ∧ t.dec = s.dec ∧
    sameEncoder s t ∧ sameChannels s t

/-- A command completed with an error and changed nothing but STATUS and the transient decoder
registers (R436). -/
def oneShotError (cmd : Byte) (c : Cause) (s t : State) : Prop :=
  completedError cmd c s t ∧ sameConfig s t ∧ t.w = s.w ∧ t.r = s.r ∧ sameEncoder s t ∧
    sameChannels s t

/-- FR_READ failed with `c` after taking `n` more bytes of the source, which now stands at `q` (R81, R366,
R437): the session is failed, nothing is pending, and nothing outside the reader changed but STATUS. -/
def readerFailed (c : Cause) (n : Nat) (q : Source) (s t : State) : Prop :=
  completedError 0x40 c s t ∧
    t.r = { identSeen := s.r.identSeen, pending := [], fail := some c, eos := false,
            consumed := s.r.consumed + n } ∧
    t.source = q ∧ sameConfig s t ∧ t.w = s.w ∧ t.enc = s.enc ∧ t.commands = s.commands ∧
    t.sinkScript = s.sinkScript ∧ t.sink = s.sink ∧ t.policy = s.policy

/-- FR_READ has handed out the first `min(max, |pending|)` pending bytes (R351, R362): the others stay
pending, `R.eos` is cleared, and the source is not touched. -/
def delivered (max : Word64) (s t : State) : Prop :=
  ∃ out, completedOk 0x40 (.read out false) s t ∧ out ++ t.r.pending = s.r.pending ∧
    out.length = min max.toNat s.r.pending.length ∧
    t.r = { s.r with pending := t.r.pending, eos := false } ∧ t.w = s.w ∧ t.dec = s.dec ∧
    sameConfig s t ∧ sameEncoder s t ∧ sameChannels s t

/-- A decode loop runs (R244): DECOMPRESS's or a compressed chunk's. -/
def decoding (s : State) : Prop :=
  s.engine = .decompressing ∨ ∃ max stored, s.engine = .decodingChunk max stored

/-- The command whose decode loop runs ends with `c` (R244, R252, R360). -/
def decodeFails (c : Cause) (s t : State) : Prop :=
  (s.engine = .decompressing → oneShotError 0x20 c s t) ∧
    ((∃ max stored, s.engine = .decodingChunk max stored) →
      readerFailed c 0 s.source s t ∧ t.crc = s.crc)

/-- The engine is idle and the host's next command has one of the codes. -/
def runs (codes : List Byte) (s : State) : Prop :=
  s.engine = .idle ∧ ∃ c rest, s.commands = c :: rest ∧ c.code ∈ codes

/-! ### Values -/

/-- Bits `hi` to `lo` of a register (R15). -/
def bitsOf (v : Word32) (hi lo : Nat) : Nat := v.toNat / 2 ^ lo % 2 ^ (hi + 1 - lo)

/-- The value of varint groups (R100): seven bits of each byte, low group first. -/
def groupValue : List Byte → Nat
  | [] => 0
  | b :: bs => b.toNat % 128 + 128 * groupValue bs

/-- Bit 7 of a byte. -/
def continues (b : Byte) : Prop := 128 ≤ b.toNat

/-- What a copy of `len` bytes at distance `offset` appends (R255): byte `i` is the byte
`offset - i mod offset` before the end. None when the offset is not valid (R249). -/
def replayCopy (out : List Byte) (offset len : Nat) : Option (List Byte) :=
  if 1 ≤ offset ∧ offset ≤ out.length then
    some (out ++ (List.range len).map fun i => out.getD (out.length - offset + i % offset) 0)
  else none

/-- The bytes an element sequence produces after `out` (R245, R255). -/
def replay : List Instr → List Byte → Option (List Byte)
  | [], out => some out
  | .lit b :: is, out => replay is (out ++ b)
  | .litX1 b :: is, out => replay is (out ++ b)
  | .litX2 b :: is, out => replay is (out ++ b)
  | .litX3 b :: is, out => replay is (out ++ b)
  | .litX4 b :: is, out => replay is (out ++ b)
  | .copy1 offset len :: is, out => (replayCopy out offset len).bind (replay is)
  | .copy2 offset len :: is, out => (replayCopy out offset len).bind (replay is)
  | .copy4 offset len :: is, out => (replayCopy out offset len).bind (replay is)
  | _ :: _, _ => none

/-- The stream identifier (R116). -/
def identBytes : List Byte := [0xff, 0x06, 0x00, 0x00, 0x73, 0x4e, 0x61, 0x50, 0x70, 0x59]

/-- The bytes of a data chunk of type `ty` for the raw bytes `u` (R113, R115, R319). -/
def dataChunkBytes (ty : Byte) (u data : List Byte) : List Byte :=
  [ty] ++ leBytes 3 (4 + data.length) ++ leBytes 4 (chk u).toNat ++ data

/-- The form a data chunk for `u` may take (R314, R317, R318): uncompressed, or compressed when that is
smaller; under REF exactly when it saves more than an eighth. -/
def chunkForm (p : Policy) (enc : EncoderRegs) (u : List Byte) (ty : Byte) (data : List Byte) : Prop :=
  ((ty = 0x01 ∧ data = u) ∨
    (ty = 0x00 ∧ data = (compressed p.encoder u enc).1 ∧ data.length < u.length)) ∧
  (p.fallback = .ref →
    (ty = 0x00 ↔ (compressed p.encoder u enc).1.length < u.length - u.length / 8))

/-- The source's next byte and the source after it (R77); none when its next answer is `EOF` or `IoFail`. -/
def nextByte (q : Source) : Option (Byte × Source) :=
  match q.next with
  | (.data b bs, q') => some (b, q'.giveFirst bs)
  | (.eof, _) => none
  | (.ioFail, _) => none

/-- The source's next `n` bytes and the source after them; none when it does not give so many before
`EOF` or `IoFail`. -/
def takeBytes : Nat → Source → Option (List Byte × Source)
  | 0, q => some ([], q)
  | n + 1, q => (nextByte q).bind fun x => (takeBytes n x.2).map fun y => (x.1 :: y.1, y.2)

/-- The state after `n` bytes of the source are consumed and it stands at `q` (R77). -/
def took (n : Nat) (q : Source) (s : State) : State :=
  { s with source := q, r := { s.r with consumed := s.r.consumed + n } }

/-- The identifier-first check (R354) lets every chunk type pass. -/
def anyChunkAllowed (s : State) : Prop := s.reqIdent = false ∨ s.r.identSeen = true

/-- A header that passes CHECK_HEADER (R355), in a state where R354 lets every type pass. -/
def headerPasses (ty : Byte) (len : Nat) : Prop :=
  (ty = 0x00 ∧ 4 ≤ len ∧ len ≤ 76494) ∨ (ty = 0x01 ∧ 4 ≤ len ∧ len ≤ 65540) ∨
    (0x80 ≤ ty.toNat ∧ ty.toNat ≤ 0xFE) ∨ (ty = 0xFF ∧ len = 6)

/-- Writing `k` bytes to the sink (R78, R79): `n` of them are accepted, over as many writes as it takes;
then all are out, or the sink has failed or accepted nothing. The last argument is the sink's coming
answers afterwards. -/
inductive SinkRun : Nat → SinkScript → Nat → Option Cause → SinkScript → Prop where
  | done (q : SinkScript) : SinkRun 0 q 0 none q
  | ioFail {k : Nat} {q q' : SinkScript} :
      q.answer (k + 1) = (.ioFail, q') → SinkRun (k + 1) q 0 (some .sinkIo) q'
  | zero {k : Nat} {q q' : SinkScript} :
      q.answer (k + 1) = (.accept 0, q') → SinkRun (k + 1) q 0 (some .sinkWriteZero) q'
  | short {k a n : Nat} {c : Option Cause} {q q' q'' : SinkScript} :
      q.answer (k + 1) = (.accept (a + 1), q') → SinkRun (k - a) q' n c q'' →
      SinkRun (k + 1) q (a + 1 + n) c q''

/-- Every coming answer of the sink accepts at least one byte (R480). -/
def neverRefuses (q : SinkScript) : Prop :=
  (∀ a ∈ q.coming, ∃ m, a = .accept (m + 1)) ∧
    ∀ n k, q.rest = .oracle n k → ∀ j, k ≤ j → ∃ m, Config.sinkOracle n j = .accept (m + 1)

/-- Writer command `cmd` has emitted the chunk of `u` (R313, R314, R319, R320, R324): first the session's
identifier if none was sent, then the data chunk, each retried until it is out. If the sink fails, it
keeps the bytes it accepted, the session is failed with that error, its buffer is lost, and `ident_sent`
says whether the identifier was written; otherwise the command is `OK` with `res` and the session's
phase is `phase`. -/
def emitted (cmd : Byte) (res : Results) (u : List Byte) (phase : WPhase) (s t : State) : Prop :=
  ∃ ty data n1 c1 q1,
    let ident := if s.w.identSent then [] else identBytes
    let chunk := dataChunkBytes ty u data
    chunkForm s.policy s.enc u ty data ∧ SinkRun ident.length s.sinkScript n1 c1 q1 ∧
    t.r = s.r ∧ sameConfig s t ∧ t.commands = s.commands ∧ t.source = s.source ∧
    t.policy = s.policy ∧
    match c1 with
    | some c =>
      completedError cmd c s t ∧ t.sink = s.sink ++ ident.take n1 ∧ t.sinkScript = q1 ∧
        t.w = { phase := .failed c, identSent := false, buf := [] } ∧ sameEncoder s t
    | none =>
      ∃ n2 c2 q2, SinkRun chunk.length q1 n2 c2 q2 ∧
        t.sink = s.sink ++ ident ++ chunk.take n2 ∧ t.sinkScript = q2 ∧
        match c2 with
        | some c =>
          completedError cmd c s t ∧ t.w = { phase := .failed c, identSent := true, buf := [] }
        | none =>
          n2 = chunk.length ∧ completedOk cmd res s t ∧ t.dec = s.dec ∧
            t.w = { phase := phase, identSent := true, buf := [] }

/-- The command codes with no command (R405). -/
def unassignedCode (code : Byte) : Prop :=
  let n := code.toNat
  n = 0x00 ∨ (0x03 ≤ n ∧ n ≤ 0x0F) ∨ (0x12 ≤ n ∧ n ≤ 0x1F) ∨ (0x21 ≤ n ∧ n ≤ 0x2F) ∨
    (0x33 ≤ n ∧ n ≤ 0x3F) ∨ (0x41 ≤ n ∧ n ≤ 0x4F) ∨ (0x52 ≤ n ∧ n ≤ 0x7C) ∨ 0x80 ≤ n

/-- The causes each command may report (R432), by command code. MAX_COMPRESS_LEN reports none, but for
the one R182 gives it in a block that follows R182 there (assumption 25). -/
def mayRaise (p : Policy) (cmd : Byte) (c : Cause) : Prop :=
  (cmd = 0x10 → p.oversize = .refused) ∧
  (cmd = 0x02 → c ∈ [Cause.varintTruncated, .varintOverflow]) ∧
  (cmd = 0x10 ∨ cmd = 0x11 → c = .encodeInputTooLarge) ∧
  (cmd = 0x20 → c ∈ [Cause.varintTruncated, .varintOverflow, .tagTruncated, .literalTruncated,
    .offsetZero, .offsetBeyondOutput, .overshoot, .lengthShort, .declaredLengthOverMax,
    .declaredLengthOverCeiling]) ∧
  (cmd = 0x30 ∨ cmd = 0x31 → c ∈ [Cause.sinkIo, .sinkWriteZero, .sessionClosed]) ∧
  (cmd = 0x32 → c ∈ [Cause.sinkIo, .sinkWriteZero]) ∧
  (cmd = 0x40 → c ∈ [Cause.varintTruncated, .varintOverflow, .tagTruncated, .literalTruncated,
    .offsetZero, .offsetBeyondOutput, .overshoot, .lengthShort, .streamIdentMissing, .streamIdentBad,
    .reservedChunkType, .chunkTooShort, .chunkTooLong, .chunkDecodedTooLong, .truncatedStream,
    .checksum, .sourceIo]) ∧
  (cmd = 0x50 → c = .badRegister) ∧
  (cmd = 0x51 → c ∈ [Cause.badRegister, .regReadOnly]) ∧
  (cmd ∉ [(0x02 : Byte), 0x10, 0x11, 0x20, 0x30, 0x31, 0x32, 0x40, 0x50, 0x51] →
    c = .unknownCommand ∧ cmd ∉ [(0x01 : Byte), 0x7D, 0x7E, 0x7F])

end Sys2Proof.Spec

open Sys2Proof Sys2Proof.Machine Sys2Proof.Spec

/-! ### Encodings -/

/-- Decoding an encoded well-formed element gives it back, whatever follows it (R112's last sentence). -/
def Obligations.DecodeInvertsEncodeOnElements : Prop :=
  ∀ (i : Instr) (rest : List Byte), i.isElement = true → i.wellFormed = true →
    decodeElem (encodeElem i ++ rest) = .ok (i, (encodeElem i).length)

/-- Decoding an encoded well-formed instruction of any of the three opcode spaces gives it back (R111 to
R114, R117). -/
def Obligations.DecodeInvertsEncode : Prop :=
  ∀ i : Instr, i.wellFormed = true → decode (encode i) = .ok (i, i.size)

/-- What the element decoder reads is a well-formed element whose encoding is exactly the bytes it took:
no byte is dropped and no two elements share an encoding (R107, R111, R112). -/
def Obligations.DecodedElementReencodes : Prop :=
  ∀ (b : List Byte) (i : Instr) (k : Nat), decodeElem b = .ok (i, k) →
    i.isElement = true ∧ i.wellFormed = true ∧ 1 ≤ k ∧ k ≤ b.length ∧ encodeElem i = b.take k

/-- Every tag byte decodes to the element type its low two bits name; an element is refused only for
being cut short (R102, R109). -/
def Obligations.EveryTagByteDecodes : Prop :=
  ∀ t : Byte,
    (∃ x i k, decodeElem (t :: x) = .ok (i, k)) ∧
    (∀ x i k, decodeElem (t :: x) = .ok (i, k) →
      (t.toNat % 4 = 0 →
        ∃ b, i ∈ [Instr.lit b, .litX1 b, .litX2 b, .litX3 b, .litX4 b]) ∧
      (t.toNat % 4 = 1 → ∃ offset len, i = .copy1 offset len) ∧
      (t.toNat % 4 = 2 → ∃ offset len, i = .copy2 offset len) ∧
      (t.toNat % 4 = 3 → ∃ offset len, i = .copy4 offset len)) ∧
    (∀ x c, decodeElem (t :: x) = .error c → c = .tagTruncated ∨ c = .literalTruncated)

/-- The chunk-type map and the 24-bit little-endian length (R113, R114, R353). -/
def Obligations.ChunkHeaderDecodes : Prop :=
  ∀ (ty a b c : Byte) (rest : List Byte),
    let len := a.toNat + 256 * b.toNat + 65536 * c.toNat
    (ty = 0x00 → decodeChunk (ty :: a :: b :: c :: rest) = .ok (.chunkCompressed len)) ∧
    (ty = 0x01 → decodeChunk (ty :: a :: b :: c :: rest) = .ok (.chunkUncompressed len)) ∧
    (0x02 ≤ ty.toNat ∧ ty.toNat ≤ 0x7F →
      decodeChunk (ty :: a :: b :: c :: rest) = .ok (.chunkReserved ty len)) ∧
    (0x80 ≤ ty.toNat ∧ ty.toNat ≤ 0xFD →
      decodeChunk (ty :: a :: b :: c :: rest) = .ok (.chunkSkip ty len)) ∧
    (ty = 0xFE → decodeChunk (ty :: a :: b :: c :: rest) = .ok (.chunkPad len)) ∧
    (ty = 0xFF → decodeChunk (ty :: a :: b :: c :: rest) = .ok (.chunkIdent len))

/-- Words written out bit by bit from the encodings, most of them examples of the spec, decode to what
they stand for (R103 to R106, R111, R114, R117, R246 to R248, R358, R359; 95_test_vectors.md). `LIT "ab"` is
04 61 62 by R102, R103 and R111; R245's example writes 06, which is a Copy2 tag (log entry 26). -/
def Obligations.WrittenOutWordsDecode : Prop :=
  decodeElem [0x04, 0x61, 0x62] = .ok (.lit [0x61, 0x62], 3) ∧
  decodeElem [0xf0, 0x04, 0x61, 0x62, 0x63, 0x64, 0x65]
    = .ok (.litX1 [0x61, 0x62, 0x63, 0x64, 0x65], 7) ∧
  decodeElem [0x2d, 0x2c] = .ok (.copy1 300 7, 2) ∧
  decodeElem [0x26, 0x01, 0x00] = .ok (.copy2 1 10, 3) ∧
  decodeElem [0x0f, 0x04, 0x00, 0x00, 0x00] = .ok (.copy4 4 4, 5) ∧
  decodeChunk [0x01, 0x06, 0x00, 0x00] = .ok (.chunkUncompressed 6) ∧
  decodeChunk [0x01, 0x04, 0x00, 0x01] = .ok (.chunkUncompressed 65540) ∧
  decodeChunk [0xff, 0x06, 0x00, 0x00] = .ok (.chunkIdent 6) ∧
  decodeCommand { code := 0x51, reg := 0x04, val := 0xFFFFFFFE } = .ok (.writeReg 0x04 0xFFFFFFFE)

/-! ### Varints -/

/-- Decoding an encoded integer gives it back with its length, whatever follows (R154). -/
def Obligations.VarintDecodeInvertsEncode : Prop :=
  ∀ (n : Word64) (rest : List Byte),
    varintDecode (varintEncode n ++ rest) = .ok (n, (varintEncode n).length)

/-- VARINT_ENCODE completes in every state with the canonical form (R100, R150): the least number of
7-bit groups, low group first, the continuation bit on all but the last. Completion: it holds in
every state. -/
def Obligations.VarintEncodeGivesCanonicalGroups : Prop :=
  ∀ (n : Word64) (s : State), ∃ v t, exec (.varintEncode n) s = .next t ∧
    oneShotOk 0x01 (.bytes v) s t ∧
    1 ≤ v.length ∧ v.length ≤ 10 ∧ n.toNat < 2 ^ (7 * v.length) ∧
    (v.length = 1 ∨ 2 ^ (7 * (v.length - 1)) ≤ n.toNat) ∧
    ∀ i < v.length, (v.getD i 0).toNat
      = n.toNat / 2 ^ (7 * i) % 128 + if i + 1 < v.length then 128 else 0

/-- The length of an encoded integer (R151). -/
def Obligations.VarintLengthBreakpoints : Prop :=
  (∀ n : Word64, n.toNat < 2 ^ 7 → (varintEncode n).length = 1) ∧
  (∀ n : Word64, 2 ^ 7 ≤ n.toNat → n.toNat < 2 ^ (7 * (varintEncode n).length) ∧
    ∀ k, n.toNat < 2 ^ (7 * k) → (varintEncode n).length ≤ k) ∧
  (∀ n : Word64, 2 ^ 63 ≤ n.toNat → (varintEncode n).length = 10) ∧
  varintEncode 4294967295 = [0xff, 0xff, 0xff, 0xff, 0x0f] ∧
  (∀ n : Word64, n.toNat ≤ 4294967295 → (varintEncode n).length ≤ 5)

/-- VARINT_DECODE (R152, R153): the value and length of the groups up to the first byte without a
continuation bit; truncation; overflow at the tenth byte. -/
def Obligations.VarintDecodeReadsGroups : Prop :=
  ∀ (src : List Byte) (s : State),
    (∀ k, k < 10 → k < src.length → (∀ j < k, continues (src.getD j 0)) →
      ¬ continues (src.getD k 0) → (k = 9 → (src.getD 9 0).toNat ≤ 1) →
      ∃ t n, exec (.varintDecode src) s = .next t ∧ n.toNat = groupValue (src.take (k + 1)) ∧
        oneShotOk 0x02 (.varint n (BitVec.ofNat 8 (k + 1))) s t) ∧
    (src.length < 10 → (∀ b ∈ src, continues b) →
      ∃ t, exec (.varintDecode src) s = .next t ∧ oneShotError 0x02 .varintTruncated s t) ∧
    (10 ≤ src.length → (∀ j < 9, continues (src.getD j 0)) → 2 ≤ (src.getD 9 0).toNat →
      ∃ t, exec (.varintDecode src) s = .next t ∧ oneShotError 0x02 .varintOverflow s t)

/-! ### Elements -/

/-- A literal that fits appends its bytes and moves the cursor past the element; nothing else changes
(R244, R245). -/
def Obligations.LiteralAppendsItsBytes : Prop :=
  ∀ (s : State) (b : List Byte), decoding s → s.dec.dst.length + b.length ≤ s.dec.len →
    ∀ p ∈ [(Instr.lit b, 0), (.litX1 b, 1), (.litX2 b, 2), (.litX3 b, 3), (.litX4 b, 4)],
      exec p.1 s = .next
        { s with dec :=
            { s.dec with dst := s.dec.dst ++ b, pc := s.dec.pc + (1 + p.2 + b.length) } }

/-- A copy with a valid offset that fits appends `len` bytes, byte `i` being the byte at
`d - offset + (i mod offset)` before the copy, and moves the cursor past the element; `offset = d` is
valid; nothing else changes (R244, R246 to R249, R255). -/
def Obligations.CopyRepeatsEarlierOutput : Prop :=
  ∀ (s : State) (offset len : Nat), decoding s → 1 ≤ offset → offset ≤ s.dec.dst.length →
    s.dec.dst.length + len ≤ s.dec.len →
    ∀ p ∈ [(Instr.copy1 offset len, 2), (.copy2 offset len, 3), (.copy4 offset len, 5)],
      ∃ dst, exec p.1 s = .next { s with dec := { s.dec with dst := dst, pc := s.dec.pc + p.2 } } ∧
        dst.length = s.dec.dst.length + len ∧
        (∀ j < s.dec.dst.length, dst[j]? = s.dec.dst[j]?) ∧
        ∀ i < len,
          dst[s.dec.dst.length + i]? = s.dec.dst[s.dec.dst.length - offset + i % offset]?

/-- A copy that does not overlap its source equals one block move (R255). -/
def Obligations.NonOverlappingCopyIsBlockMove : Prop :=
  ∀ (s : State) (offset len : Nat), decoding s → 1 ≤ offset → offset ≤ s.dec.dst.length →
    len ≤ offset → s.dec.dst.length + len ≤ s.dec.len →
    ∀ p ∈ [(Instr.copy1 offset len, 2), (.copy2 offset len, 3), (.copy4 offset len, 5)],
      exec p.1 s = .next
        { s with dec :=
            { s.dec with
              dst := s.dec.dst ++ (s.dec.dst.drop (s.dec.dst.length - offset)).take len
              pc := s.dec.pc + p.2 } }

/-- An element that fails ends the command whose decode it is in (DECOMPRESS, or FR_READ in a compressed
chunk) with the first failing check's cause: an element cut short before anything else, then offset 0,
offset beyond the output, overshoot, in this order (R109, R112, R244, R245, R249, R360, R434). -/
def Obligations.ElementChecksRunInOrder : Prop :=
  ∀ (s : State) (offset len : Nat) (b : List Byte), decoding s →
    (∀ i ∈ [Instr.copy1 offset len, .copy2 offset len, .copy4 offset len],
      (offset = 0 → ∃ t, exec i s = .next t ∧ decodeFails .offsetZero s t) ∧
      (offset ≠ 0 → s.dec.dst.length < offset →
        ∃ t, exec i s = .next t ∧ decodeFails .offsetBeyondOutput s t) ∧
      (offset ≠ 0 → offset ≤ s.dec.dst.length → s.dec.len < s.dec.dst.length + len →
        ∃ t, exec i s = .next t ∧ decodeFails .overshoot s t)) ∧
    (∀ i ∈ [Instr.lit b, .litX1 b, .litX2 b, .litX3 b, .litX4 b],
      s.dec.len < s.dec.dst.length + b.length →
        ∃ t, exec i s = .next t ∧ decodeFails .overshoot s t) ∧
    ∀ c, s.dec.pc < s.dec.src.length → decodeElem (s.dec.src.drop s.dec.pc) = .error c →
      (c = .tagTruncated ∨ c = .literalTruncated) ∧ ∃ t, step s = .next t ∧ decodeFails c s t

/-! ### DECOMPRESS -/

/-- DECOMPRESS checks its header and both length limits in order, then starts its decode at the byte
after the header with no byte written (R240 to R243). -/
def Obligations.DecompressChecksThenStarts : Prop :=
  ∀ (src : List Byte) (s : State),
    (∀ n h, varintDecode src = .ok (n, h) → n.toNat ≤ 4294967295 →
      n.toNat ≤ s.cfgMaxDecode.toNat →
      exec (.decompress src) s = .next
        { s with engine := .decompressing
                 dec := { src := src, pc := h, len := n.toNat, dst := [] } }) ∧
    (∀ c, varintDecode src = .error c →
      ∃ t, exec (.decompress src) s = .next t ∧ oneShotError 0x20 c s t) ∧
    (∀ n h, varintDecode src = .ok (n, h) → 4294967295 < n.toNat →
      ∃ t, exec (.decompress src) s = .next t ∧ oneShotError 0x20 .declaredLengthOverMax s t) ∧
    (∀ n h, varintDecode src = .ok (n, h) → n.toNat ≤ 4294967295 →
      s.cfgMaxDecode.toNat < n.toNat →
      ∃ t, exec (.decompress src) s = .next t ∧ oneShotError 0x20 .declaredLengthOverCeiling s t)

/-- At the end of the tag stream DECOMPRESS returns the bytes written, when they are as many as
declared, and is corrupt otherwise (R250, R251). -/
def Obligations.DecompressEndsWithItsBytes : Prop :=
  ∀ s : State, s.engine = .decompressing → s.dec.src.length ≤ s.dec.pc →
    (s.dec.dst.length = s.dec.len →
      ∃ t, step s = .next t ∧ oneShotOk 0x20 (.bytes s.dec.dst) s t) ∧
    (s.dec.dst.length ≠ s.dec.len →
      ∃ t, step s = .next t ∧ oneShotError 0x20 .lengthShort s t)

/-- DECOMPRESS, run from the host's command to its response, is a function of its operand and the cap
alone, and changes no architectural state but STATUS (R244, R252, R253, R436). -/
def Obligations.DecompressRunsToItsResult : Prop :=
  ∀ (s : State) (c : HostCommand) (rest : List HostCommand),
    s.engine = .idle → s.commands = c :: rest → c.code = 0x20 →
    ∃ k t, Host.Core.run core k s = .next t ∧
      (∀ b, decompressed s.cfgMaxDecode c.src = .ok b → completedOk 0x20 (.bytes b) s t) ∧
      (∀ e, decompressed s.cfgMaxDecode c.src = .error e → completedError 0x20 e s t) ∧
      sameConfig s t ∧ t.w = s.w ∧ t.r = s.r ∧ sameEncoder s t ∧
      sameChannels { s with commands := rest } t

/-- A raw-format stream of well-formed elements decodes to the bytes the elements produce (R101, R240,
R245, R255). -/
def Obligations.DecompressReplaysElements : Prop :=
  ∀ (is : List Instr) (src : List Byte) (cap : Word32),
    (∀ i ∈ is, i.isElement = true ∧ i.wellFormed = true) → replay is [] = some src →
    src.length ≤ cap.toNat →
    decompressed cap (varintEncode (BitVec.ofNat 64 src.length) ++ encodeElems is) = .ok src

/-! ### The encoder -/

/-- Every encoder policy, REF among them, conforms (R181, R184, R198, R199): the output is the
length header and encoded elements that reproduce the input, decodes to it, is within the bound, and
depends on the input alone. For policies other than REF the conformance comes from the model itself,
which uses the free body only where it conforms (log entry 8). -/
def Obligations.CompressConforms : Prop :=
  ∀ (p : Config.EncoderChoice) (src : List Byte) (r : EncoderRegs), src.length ≤ 4294967295 →
    decompressed 0xFFFFFFFF (compressed p src r).1 = .ok src ∧
    (compressed p src r).1.length ≤ 32 + src.length + src.length / 6 ∧
    (∃ is, (compressed p src r).1
        = varintEncode (BitVec.ofNat 64 src.length) ++ encodeElems is ∧
      (∀ i ∈ is, i.isElement = true ∧ i.wellFormed = true) ∧ replay is [] = some src) ∧
    ∀ r', (compressed p src r').1 = (compressed p src r).1

/-- COMPRESS completes on every input within the limit with the policy's stream, and refuses a longer
one; it changes STATUS and the encoder's registers only (R180). -/
def Obligations.CompressCompletes : Prop :=
  ∀ (src : List Byte) (s : State),
    (src.length ≤ 4294967295 → ∃ body t, exec (.compress src) s = .next t ∧
      varintEncode (BitVec.ofNat 64 src.length) ++ body
        = (compressed s.policy.encoder src s.enc).1 ∧
      completedOk 0x11 (.bytes (varintEncode (BitVec.ofNat 64 src.length) ++ body)) s t ∧
      sameConfig s t ∧ t.w = s.w ∧ t.r = s.r ∧ t.dec = s.dec ∧ t.crc = s.crc ∧ sameChannels s t) ∧
    (4294967295 < src.length →
      ∃ t, exec (.compress src) s = .next t ∧ oneShotError 0x11 .encodeInputTooLarge s t)

/-- Under every policy an empty input compresses to the byte 00, and a one-byte input to its literal
(R183). That a policy other than REF does so for one byte is the model's choice (log entry 8, DEDUCED):
R181 alone would let a wide literal pass, and R183 marks its own sentence as derived. -/
def Obligations.SmallestInputsCompressAlike : Prop :=
  ∀ s : State,
    (∃ t, exec (.compress []) s = .next t ∧ completedOk 0x11 (.bytes [0x00]) s t) ∧
    ∀ b : Byte, ∃ t, exec (.compress [b]) s = .next t ∧
      completedOk 0x11 (.bytes [0x01, 0x00, b]) s t

/-- MAX_COMPRESS_LEN reports `32 + n + n/6` for every block length (R182). For a larger one the spec's
rules disagree, and which the block follows is the model's choice, held in State (log entry 25, DESIGN
CHOICE): it refuses it (R182), or it raises nothing and reports the same formula as far as that fits 64
bits (R430, R432). -/
def Obligations.MaxCompressLenReportsBound : Prop :=
  ∀ (n : Word64) (s : State),
    (n.toNat ≤ 4294967295 → ∃ v t, exec (.maxCompressLen n) s = .next t ∧
      v.toNat = 32 + n.toNat + n.toNat / 6 ∧ oneShotOk 0x10 (.bound v) s t) ∧
    (4294967295 < n.toNat → s.policy.oversize = .refused →
      ∃ t, exec (.maxCompressLen n) s = .next t ∧ oneShotError 0x10 .encodeInputTooLarge s t) ∧
    (4294967295 < n.toNat → s.policy.oversize = .answered →
      ∃ v t, exec (.maxCompressLen n) s = .next t ∧ oneShotOk 0x10 (.bound v) s t ∧
        (32 + n.toNat + n.toNat / 6 < 2 ^ 64 → v.toNat = 32 + n.toNat + n.toNat / 6))

/-- A long copy is split into well-formed pieces of 4 to 64 bytes at the same distance, which together
reproduce it (R201 to R205). -/
def Obligations.LongCopySplitsIntoPieces : Prop :=
  ∀ (offset len : Nat) (out : List Byte), 4 ≤ len → 1 ≤ offset → offset ≤ 4294967295 →
    offset ≤ out.length →
    (∀ i ∈ emitCopy offset len, i.wellFormed = true ∧ ∃ l, 4 ≤ l ∧ l ≤ 64 ∧
      i = if l ≤ 11 ∧ offset ≤ 2047 then .copy1 offset l
          else if offset ≤ 65535 then .copy2 offset l else .copy4 offset l) ∧
    replay (emitCopy offset len) out = replayCopy out offset len

/-! ### The checksum -/

/-- Changing one byte of a chunk's data always changes its checksum (R297, for every change within one
byte, single-bit flips among them). -/
def Obligations.OneByteChangeChangesChecksum : Prop :=
  ∀ (before after : List Byte) (x y : Byte), x ≠ y →
    chk (before ++ [x] ++ after) ≠ chk (before ++ [y] ++ after)

/-- The mask is a bijection on 32-bit words: a rotation by 15 bits and an addition (R294, R297). -/
def Obligations.MaskIsBijective : Prop :=
  Function.Bijective maskCrc ∧
    ∀ c : Word32, maskCrc c = c.rotateRight 15 + 0xA282EAD8

/-- Known checksums (R290, R291, R292; 95_test_vectors.md 2.4). -/
def Obligations.ChecksumKnownValues : Prop :=
  crc32c [] = 0x00000000 ∧ crc32c [0x61] = 0xC1D04330 ∧
  crc32c [0x31, 0x32, 0x33, 0x34, 0x35, 0x36, 0x37, 0x38, 0x39] = 0xE3069283 ∧
  chk [] = 0xA282EAD8 ∧ chk [0x68, 0x69] = 0x5608D613

/-! ### The frame writer -/

/-- FW_WRITE of bytes that do not fill the buffer appends them to it and writes nothing to the sink
(R311, R312). -/
def Obligations.WriteBuffersShortInput : Prop :=
  ∀ (src : List Byte) (s : State), s.w.phase = .opened →
    s.w.buf.length + src.length < 65536 →
    ∃ t, exec (.fwWrite src) s = .next t ∧
      completedOk 0x30 (.count (BitVec.ofNat 64 src.length)) s t ∧
      t.w = { s.w with buf := s.w.buf ++ src } ∧ t.r = s.r ∧ t.dec = s.dec ∧ sameEncoder s t ∧
      sameConfig s t ∧ sameChannels s t

/-- FW_WRITE of bytes that exactly fill the buffer emits the chunk at once, with the identifier before a
session's first chunk, whatever the sink answers: short writes are retried until exactly the chunk's
bytes are out; a failure leaves what the sink had accepted (R79, R311 to R314, R319, R320, R324, R436). -/
def Obligations.WriteEmitsFullBuffer : Prop :=
  ∀ (src : List Byte) (s : State), s.w.phase = .opened → src ≠ [] →
    s.w.buf.length + src.length = 65536 →
    ∃ t, exec (.fwWrite src) s = .next t ∧
      emitted 0x30 (.count (BitVec.ofNat 64 src.length)) (s.w.buf ++ src) .opened s t

/-- Writing bytes in two FW_WRITE pieces leaves the same session and the same sink as writing them in
one; when the first piece fails, writing them in one fails at the same place, in the same state (R312,
R324, R328). -/
def Obligations.WriteInPiecesIsTheSame : Prop :=
  ∀ (a b : List Byte) (s t : State), s.w.phase = .opened → exec (.fwWrite a) s = .next t →
    (t.w.phase = .opened →
      ∃ t2 t3, exec (.fwWrite b) t = .next t2 ∧ exec (.fwWrite (a ++ b)) s = .next t3 ∧
        t2.w = t3.w ∧ t2.sink = t3.sink ∧ t2.sinkScript = t3.sinkScript ∧
        t2.status.result = t3.status.result) ∧
    (t.w.phase ≠ .opened → exec (.fwWrite (a ++ b)) s = .next t)

/-- FW_FLUSH and FW_CLOSE emit what is buffered as one chunk, with the identifier before a session's
first chunk, whatever the sink answers: short writes are retried until exactly the chunk's bytes are
out; a failure leaves what the sink had accepted. With nothing buffered they write nothing (R79, R313 to
R322, R324, R436). -/
def Obligations.FlushAndCloseEmitTheBuffer : Prop :=
  ∀ (s : State), s.w.phase = .opened →
    ∀ p ∈ [((0x31 : Byte), Instr.fwFlush, WPhase.opened), (0x32, .fwClose, .closed)],
      (s.w.buf ≠ [] → ∃ t, exec p.2.1 s = .next t ∧ emitted p.1 .none s.w.buf p.2.2 s t) ∧
      (s.w.buf = [] →
        ∃ t, exec p.2.1 s = .next t ∧ completedOk p.1 .none s t ∧
          t.w = { s.w with phase := p.2.2 } ∧ t.r = s.r ∧ t.dec = s.dec ∧ sameEncoder s t ∧
          sameConfig s t ∧ sameChannels s t)

/-- After FW_CLOSE, FW_WRITE and FW_FLUSH are refused and change nothing but STATUS; a second FW_CLOSE is
`OK` (R310, R322, R323). -/
def Obligations.ClosedSessionRefuses : Prop :=
  ∀ (src : List Byte) (s : State), s.w.phase = .closed →
    (∃ t, exec (.fwWrite src) s = .next t ∧ oneShotError 0x30 .sessionClosed s t) ∧
    (∃ t, exec .fwFlush s = .next t ∧ oneShotError 0x31 .sessionClosed s t) ∧
    ∃ t, exec .fwClose s = .next t ∧ oneShotOk 0x32 .none s t

/-- A failed writer session repeats its error on every writer command, with no access to the sink and no
change of the session (R310, R324). -/
def Obligations.FailedWriterRepeatsItsError : Prop :=
  ∀ (src : List Byte) (s : State) (c : Cause), s.w.phase = .failed c → writerOk s.w = true →
    ∀ p ∈ [((0x30 : Byte), Instr.fwWrite src), (0x31, .fwFlush), (0x32, .fwClose)],
      ∃ t, exec p.2 s = .next t ∧ oneShotError p.1 c s t

/-- A writer command in an open session completes: it adds bytes to the sink and is `OK`, or reports a
sink error, after which the session is failed with that error and its buffer is lost; the identifier
counts as sent exactly when it was before or is what the added bytes begin with; the command is `OK` when
every coming answer accepts at least one byte (R79, R313, R314, R320, R324, R325, R436, R480). -/
def Obligations.WriterCommandCompletesOrFailsItsSession : Prop :=
  ∀ (src : List Byte) (s : State), s.w.phase = .opened →
    ∀ p ∈ [((0x30 : Byte), Instr.fwWrite src), (0x31, .fwFlush), (0x32, .fwClose)],
      ∃ t added, exec p.2 s = .next t ∧ t.sink = s.sink ++ added ∧
        (((∃ res, completedOk p.1 res s t) ∧ ∀ c, t.w.phase ≠ .failed c) ∨
          ∃ c, (c = .sinkIo ∨ c = .sinkWriteZero) ∧ completedError p.1 c s t ∧
            t.w.phase = .failed c ∧ t.w.buf = []) ∧
        (t.w.identSent = true ↔ s.w.identSent = true ∨ identBytes <+: added) ∧
        (neverRefuses s.sinkScript → ∃ res, completedOk p.1 res s t) ∧
        t.r = s.r ∧ sameConfig s t ∧ t.commands = s.commands ∧ t.source = s.source ∧
        t.policy = s.policy

/-! ### The frame reader -/

/-- `SourceReadExact(k)` collects exactly the next `k` bytes whatever pieces the source gives them in;
when the source ends first it reports the bytes there were, and when it fails, the failure; one of these
always happens, for a source that never ends too (R13, R77, R80). -/
def Obligations.SourceReadExactCollects : Prop :=
  ∀ (k : Nat) (s : State),
    (∀ b q, takeBytes k s.source = some (b, q) → sourceReadExact k s = .full b (took k q s)) ∧
    (∀ n b q q', n < k → takeBytes n s.source = some (b, q) → q.next = (.eof, q') →
      sourceReadExact k s = .short b (took n q' s)) ∧
    (∀ n b q q', n < k → takeBytes n s.source = some (b, q) → q.next = (.ioFail, q') →
      sourceReadExact k s = .ioFail (took n q' s)) ∧
    ((∃ b q, takeBytes k s.source = some (b, q)) ∨
      ∃ n b q q', n < k ∧ takeBytes n s.source = some (b, q) ∧
        (q.next = (.eof, q') ∨ q.next = (.ioFail, q')))

/-- FR_READ repeats a failed session's error; reads nothing for `max = 0`; hands out at most `max` of the
pending bytes, at once or from inside its chunk loop; and starts its chunk loop when nothing is pending
(R351, R362, R366). -/
def Obligations.ReadAnswersOrStartsItsLoop : Prop :=
  ∀ (max : Word64) (s : State),
    (∀ c, s.r.fail = some c →
      ∃ t, exec (.frRead max) s = .next t ∧ readerFailed c 0 s.source s t) ∧
    (s.r.fail = none → max = 0 →
      ∃ t, exec (.frRead max) s = .next t ∧ oneShotOk 0x40 (.read [] false) s t) ∧
    (s.r.fail = none → max ≠ 0 → s.r.pending ≠ [] →
      ∃ t, exec (.frRead max) s = .next t ∧ delivered max s t) ∧
    (s.r.fail = none → max ≠ 0 → s.r.pending = [] →
      exec (.frRead max) s = .next { s with engine := .reading max }) ∧
    (s.engine = .reading max → s.r.pending ≠ [] → ∃ t, step s = .next t ∧ delivered max s t)

/-- FR_READ's loop at the end of the source (R352, R361, R364): before a header it is a clean end of
stream, inside a header a truncated stream; a source failure is reported as such. -/
def Obligations.SourceEndIsCleanOnlyBeforeHeader : Prop :=
  ∀ (s : State) (max : Word64) (n : Nat) (b : List Byte) (q q' : Source), s.engine = .reading max →
    s.r.pending = [] → n < 4 → takeBytes n s.source = some (b, q) →
    (q.next = (.eof, q') → n = 0 →
      ∃ t, step s = .next t ∧ completedOk 0x40 (.read [] true) s t ∧
        t.r = { s.r with eos := true } ∧ t.source = q' ∧ t.w = s.w ∧ t.dec = s.dec ∧
        sameConfig s t ∧ sameEncoder s t ∧ t.sink = s.sink ∧ t.sinkScript = s.sinkScript ∧
        t.commands = s.commands ∧ t.policy = s.policy) ∧
    (q.next = (.eof, q') → n ≠ 0 →
      ∃ t, step s = .next t ∧ readerFailed .truncatedStream n q' s t) ∧
    (q.next = (.ioFail, q') → ∃ t, step s = .next t ∧ readerFailed .sourceIo n q' s t)

/-- The header checks run in order before any payload byte is read: identifier first, reserved type, data
chunk lengths, identifier length (R354, R355, R356). -/
def Obligations.HeaderChecksRunInOrder : Prop :=
  ∀ (s : State) (max : Word64) (ty : Byte) (len : Nat), s.engine = .reading max →
    (s.reqIdent = true → s.r.identSeen = false → ty ≠ 0xFF →
      ∃ t, exec (chunkOf ty len) s = .next t ∧
        readerFailed .streamIdentMissing 0 s.source s t) ∧
    (anyChunkAllowed s → 0x02 ≤ ty.toNat → ty.toNat ≤ 0x7F →
      ∃ t, exec (chunkOf ty len) s = .next t ∧
        readerFailed .reservedChunkType 0 s.source s t) ∧
    (anyChunkAllowed s → (ty = 0x00 ∨ ty = 0x01) → len < 4 →
      ∃ t, exec (chunkOf ty len) s = .next t ∧
        readerFailed .chunkTooShort 0 s.source s t) ∧
    (anyChunkAllowed s → (ty = 0x01 ∧ 65540 < len) ∨ (ty = 0x00 ∧ 76494 < len) →
      ∃ t, exec (chunkOf ty len) s = .next t ∧
        readerFailed .chunkTooLong 0 s.source s t) ∧
    (ty = 0xFF → len ≠ 6 →
      ∃ t, exec (chunkOf ty len) s = .next t ∧
        readerFailed .streamIdentBad 0 s.source s t)

/-- A chunk whose payload is cut short is a truncated stream, or the source's failure, whatever the
payload holds, the first identifier chunk of a session among them (R358, R361). -/
def Obligations.CutPayloadIsTruncatedStream : Prop :=
  ∀ (s : State) (max : Word64) (ty : Byte) (len n : Nat) (b : List Byte) (q q' : Source),
    s.engine = .reading max → anyChunkAllowed s ∨ ty = 0xFF → headerPasses ty len → n < len →
    takeBytes n s.source = some (b, q) →
    (q.next = (.eof, q') →
      ∃ t, exec (chunkOf ty len) s = .next t ∧ readerFailed .truncatedStream n q' s t) ∧
    (q.next = (.ioFail, q') →
      ∃ t, exec (chunkOf ty len) s = .next t ∧ readerFailed .sourceIo n q' s t)

/-- An uncompressed-data chunk makes its data pending when the stored checksum is that of the data, and is
a checksum mismatch otherwise; its payload is consumed (R81, R296, R359). -/
def Obligations.UncompressedChunkYieldsItsData : Prop :=
  ∀ (s : State) (max : Word64) (len : Nat) (p : List Byte) (q : Source), s.engine = .reading max →
    anyChunkAllowed s → 4 ≤ len → len ≤ 65540 → takeBytes len s.source = some (p, q) →
    (p.take 4 = leBytes 4 (chk (p.drop 4)).toNat →
      ∃ t, exec (.chunkUncompressed len) s = .next t ∧
        t = took len q { s with crc := t.crc, r := { s.r with pending := p.drop 4 } }) ∧
    (p.take 4 ≠ leBytes 4 (chk (p.drop 4)).toNat →
      ∃ t, exec (.chunkUncompressed len) s = .next t ∧ readerFailed .checksum len q s t)

/-- A compressed-data chunk starts the decode of its data, with its own ceiling of 65536 bytes and not the
configured cap; the stored checksum waits for the end; its payload is consumed (R81, R254, R360). -/
def Obligations.CompressedChunkStartsItsDecode : Prop :=
  ∀ (s : State) (max : Word64) (len : Nat) (p : List Byte) (q : Source), s.engine = .reading max →
    anyChunkAllowed s → 4 ≤ len → len ≤ 76494 → takeBytes len s.source = some (p, q) →
    (∀ n h, varintDecode (p.drop 4) = .ok (n, h) → n.toNat ≤ 65536 →
      exec (.chunkCompressed len) s = .next (took len q
        { s with engine := .decodingChunk max (p.take 4)
                 dec := { src := p.drop 4, pc := h, len := n.toNat, dst := [] } })) ∧
    (∀ n h, varintDecode (p.drop 4) = .ok (n, h) → 65536 < n.toNat →
      ∃ t, exec (.chunkCompressed len) s = .next t ∧
        readerFailed .chunkDecodedTooLong len q s t) ∧
    (∀ c, varintDecode (p.drop 4) = .error c →
      ∃ t, exec (.chunkCompressed len) s = .next t ∧ readerFailed c len q s t)

/-- At the end of a compressed chunk's decode the bytes become pending when their checksum is the stored
one; the decoder's errors come before the comparison (R250, R296, R360, R435). -/
def Obligations.CompressedChunkEndsWithItsChecksum : Prop :=
  ∀ (s : State) (max : Word64) (stored : List Byte), s.engine = .decodingChunk max stored →
    s.dec.src.length ≤ s.dec.pc →
    (s.dec.dst.length ≠ s.dec.len →
      ∃ t, step s = .next t ∧ readerFailed .lengthShort 0 s.source s t) ∧
    (s.dec.dst.length = s.dec.len → stored = leBytes 4 (chk s.dec.dst).toNat →
      ∃ t, step s = .next t ∧
        t = { s with engine := .reading max, crc := t.crc
                     r := { s.r with pending := s.dec.dst } }) ∧
    (s.dec.dst.length = s.dec.len → stored ≠ leBytes 4 (chk s.dec.dst).toNat →
      ∃ t, step s = .next t ∧ readerFailed .checksum 0 s.source s t)

/-- Skippable and padding chunks of any length and content are read and discarded; nothing else changes
(R357). -/
def Obligations.SkippableChunksAreDiscarded : Prop :=
  ∀ (s : State) (max : Word64) (ty : Byte) (len : Nat) (p : List Byte) (q : Source),
    s.engine = .reading max → anyChunkAllowed s → 0x80 ≤ ty.toNat → ty.toNat ≤ 0xFD →
    takeBytes len s.source = some (p, q) →
    ∀ i ∈ [Instr.chunkSkip ty len, .chunkPad len], exec i s = .next (took len q s)

/-- A stream-identifier chunk with the payload `sNaPpY` sets the flag, the first time and every later
time, and yields nothing; any other payload is a bad identifier; the payload is consumed (R81, R358). -/
def Obligations.IdentChunkIsChecked : Prop :=
  ∀ (s : State) (max : Word64) (p : List Byte) (q : Source), s.engine = .reading max →
    takeBytes 6 s.source = some (p, q) →
    (p = [0x73, 0x4e, 0x61, 0x50, 0x70, 0x59] →
      exec (.chunkIdent 6) s = .next (took 6 q { s with r := { s.r with identSeen := true } })) ∧
    (p ≠ [0x73, 0x4e, 0x61, 0x50, 0x70, 0x59] →
      ∃ t, exec (.chunkIdent 6) s = .next t ∧ readerFailed .streamIdentBad 6 q s t)

/-- A reserved unskippable chunk fails the reader's session whatever its length; its payload is not read
(R356). -/
def Obligations.ReservedChunkFailsTheReader : Prop :=
  ∀ (s : State) (max : Word64) (ty : Byte) (len : Nat), s.engine = .reading max →
    anyChunkAllowed s → 0x02 ≤ ty.toNat → ty.toNat ≤ 0x7F →
    ∃ t, exec (.chunkReserved ty len) s = .next t ∧
      readerFailed .reservedChunkType 0 s.source s t ∧ t.crc = s.crc

/-- A data chunk the writer emits, under any policies, is read back: FR_READ's loop makes exactly its raw
bytes pending and takes exactly the chunk's bytes (R316, R327). -/
def Obligations.WrittenChunkReadsBack : Prop :=
  ∀ (s : State) (max : Word64) (p : Policy) (enc : EncoderRegs) (u : List Byte) (q : Source),
    s.engine = .reading max → s.r.pending = [] → anyChunkAllowed s → u ≠ [] →
    u.length ≤ 65536 →
    let chunk := dataChunk p.fallback u (compressed p.encoder u enc).1
    takeBytes chunk.length s.source = some (chunk, q) →
    ∃ k t, Host.Core.run core k s = .next t ∧ t.engine = .reading max ∧
      t.r = { s.r with pending := u, consumed := s.r.consumed + chunk.length } ∧
      t.source = q ∧ t.responses = s.responses ∧ t.w = s.w ∧ t.sink = s.sink

/-! ### Control commands -/

/-- READ_REG gives each register with every field in its place and every reserved bit 0, STATUS as it was
before the command; an unassigned number is refused; nothing but STATUS changes (R33 to R38, R401). -/
def Obligations.ReadRegGivesEveryField : Prop :=
  ∀ s : State, s.w.buf.length ≤ 65536 → s.r.pending.length ≤ 65536 →
    (∃ t, exec (.readReg 0x00) s = .next t ∧ oneShotOk 0x50 (.reg s.cfgMaxDecode) s t) ∧
    (∃ t, exec (.readReg 0x04) s = .next t ∧
      oneShotOk 0x50 (.reg (if s.reqIdent then 1 else 0)) s t) ∧
    (∃ t v, exec (.readReg 0x08) s = .next t ∧ oneShotOk 0x50 (.reg v) s t ∧
      bitsOf v 3 0 = (match s.status.result with | none => 0 | some c => kindCode (causeKind c)) ∧
      bitsOf v 7 4 = 0 ∧
      bitsOf v 15 8 = (match s.status.result with | none => 0 | some c => causeCode c) ∧
      bitsOf v 23 16 = s.status.lastCmd.toNat ∧ bitsOf v 31 24 = 0) ∧
    (∃ t v, exec (.readReg 0x0C) s = .next t ∧ oneShotOk 0x50 (.reg v) s t ∧
      bitsOf v 16 0 = s.w.buf.length ∧ bitsOf v 17 17 = (if s.w.identSent then 1 else 0) ∧
      bitsOf v 19 18 = (match s.w.phase with | .opened => 0 | .closed => 1 | .failed _ => 2) ∧
      bitsOf v 23 20
        = (match s.w.phase with
           | .failed c => kindCode (causeKind c) | .opened => 0 | .closed => 0) ∧
      bitsOf v 31 24
        = (match s.w.phase with | .failed c => causeCode c | .opened => 0 | .closed => 0)) ∧
    (∃ t v, exec (.readReg 0x10) s = .next t ∧ oneShotOk 0x50 (.reg v) s t ∧
      bitsOf v 16 0 = s.r.pending.length ∧ bitsOf v 17 17 = (if s.r.identSeen then 1 else 0) ∧
      bitsOf v 18 18 = (if s.r.fail = none then 0 else 1) ∧
      bitsOf v 19 19 = (if s.r.eos then 1 else 0) ∧
      bitsOf v 23 20 = (match s.r.fail with | none => 0 | some c => kindCode (causeKind c)) ∧
      bitsOf v 31 24 = (match s.r.fail with | none => 0 | some c => causeCode c)) ∧
    ∀ r : Byte, r ∉ [(0x00 : Byte), 0x04, 0x08, 0x0C, 0x10] →
      ∃ t, exec (.readReg r) s = .next t ∧ oneShotError 0x50 .badRegister s t

/-- WRITE_REG stores the two configuration registers, of CFG_CTRL bit 0 only, refuses the read-only and
the unassigned numbers, and changes no other register; the value written is what a read then gives
(R34, R38, R400, R401). -/
def Obligations.WriteRegStoresConfiguration : Prop :=
  ∀ (v : Word32) (s : State),
    (∃ t, exec (.writeReg 0x00 v) s = .next t ∧ t.cfgMaxDecode = v ∧
      oneShotOk 0x51 .none { s with cfgMaxDecode := v } t) ∧
    (∃ t, exec (.writeReg 0x04 v) s = .next t ∧
      oneShotOk 0x51 .none { s with reqIdent := v.getLsbD 0 } t ∧
      ∃ t2, exec (.readReg 0x04) t = .next t2 ∧
        t2.responses = t.responses ++ [.ok (.reg (v &&& 1))]) ∧
    (∀ r ∈ [(0x08 : Byte), 0x0C, 0x10],
      ∃ t, exec (.writeReg r v) s = .next t ∧ oneShotError 0x51 .regReadOnly s t) ∧
    ∀ r : Byte, r ∉ [(0x00 : Byte), 0x04, 0x08, 0x0C, 0x10] →
      ∃ t, exec (.writeReg r v) s = .next t ∧ oneShotError 0x51 .badRegister s t

/-- RESET succeeds in every state and gives every architectural element its reset value, STATUS then
reading LAST_CMD 0x7F; it touches neither the sink nor the source (R48, R402, R470). -/
def Obligations.ResetRestoresTheBlock : Prop :=
  ∀ s : State, ∃ t, exec .reset s = .next t ∧
    completedOk 0x7F .none s t ∧ statusWord t.status = 0x007F0000 ∧
    t.cfgMaxDecode = 0xFFFFFFFF ∧ t.reqIdent = true ∧
    t.w = { phase := .opened, identSent := false, buf := [] } ∧
    t.r = { identSeen := false, pending := [], fail := none, eos := false, consumed := 0 } ∧
    (∀ h, htRead t.enc.ht h = 0) ∧ sameChannels s t

/-- RESET_WRITER and RESET_READER reset one session each and nothing else (R403, R404). -/
def Obligations.SessionResetsAreSeparate : Prop :=
  ∀ s : State,
    (∃ t, exec .resetWriter s = .next t ∧
      oneShotOk 0x7D .none { s with w := { phase := .opened, identSent := false, buf := [] } } t) ∧
    ∃ t, exec .resetReader s = .next t ∧
      oneShotOk 0x7E .none
        { s with r :=
            { identSeen := false, pending := [], fail := none, eos := false, consumed := 0 } } t

/-- A command with an unassigned code is refused and changes nothing but STATUS; a command with any other
code is an instruction (R405). -/
def Obligations.UnknownCommandIsRefused : Prop :=
  (∀ (s : State) (c : HostCommand) (rest : List HostCommand), s.engine = .idle →
    s.commands = c :: rest → unassignedCode c.code →
    ∃ t, step s = .next t ∧ oneShotError c.code .unknownCommand { s with commands := rest } t) ∧
  ∀ c : HostCommand, ¬ unassignedCode c.code → ∃ i, decodeCommand c = .ok i

/-! ### The whole machine -/

/-- A step runs the instruction its fetch decodes: the host's next command when the engine is idle,
the element at the cursor in a decode, the chunk whose header the source gives in FR_READ's loop
(R30, R44, R244, R352). The last clause, that an idle engine with no command changes nothing, is the
model reading of R444 (log entry 2, DEDUCED). -/
def Obligations.StepRunsTheDecodedInstruction : Prop :=
  (∀ (s : State) (c : HostCommand) (rest : List HostCommand) (i : Instr), s.engine = .idle →
    s.commands = c :: rest → decodeCommand c = .ok i →
    step s = exec i { s with commands := rest }) ∧
  (∀ (s : State) (i : Instr) (k : Nat), decoding s → s.dec.pc < s.dec.src.length →
    decodeElem (s.dec.src.drop s.dec.pc) = .ok (i, k) → step s = exec i s) ∧
  (∀ (s t : State) (max : Word64) (hdr : List Byte) (i : Instr), s.engine = .reading max →
    s.r.pending = [] → sourceReadExact 4 s = .full hdr t → decodeChunk hdr = .ok i →
    step s = exec i t) ∧
  ∀ s : State, s.engine = .idle → s.commands = [] → step s = .next s

/-- In a decode the cursor advances by the length of the element at it, and never moves backward, as long
as the decode goes on (R44, R107, R244). -/
def Obligations.CursorAdvancesByElementLength : Prop :=
  ∀ (s t : State) (i : Instr) (k : Nat), decoding s → s.dec.pc < s.dec.src.length →
    decodeElem (s.dec.src.drop s.dec.pc) = .ok (i, k) → step s = .next t → decoding t →
    t.dec.pc = s.dec.pc + k ∧ s.dec.pc < t.dec.pc ∧ t.dec.pc ≤ t.dec.src.length ∧
      t.dec.src = s.dec.src ∧ t.dec.len = s.dec.len ∧ s.dec.dst <+: t.dec.dst

/-- From every state a step answers a next state: no step stops the block, and no error locks it up
(R436 to R439). The two faults of the model are reached by no step (log entry 13). -/
def Obligations.EveryStepAnswersANextState : Prop := ∀ s : State, Steps s

/-- The reset state has the values the rules give and meets the invariants (R48, R471). -/
def Obligations.ResetMeetsTheInvariants : Prop :=
  State.reset.ok = true ∧ htOk State.reset.enc.ht = true ∧
  State.reset.cfgMaxDecode = 0xFFFFFFFF ∧ State.reset.reqIdent = true ∧
  statusWord State.reset.status = 0 ∧ wstateWord State.reset.w = 0 ∧ rstateWord State.reset.r = 0 ∧
  State.reset.r.consumed = 0 ∧ (∀ h, htRead State.reset.enc.ht h = 0) ∧
  State.reset.engine = .idle

/-- Every step keeps the session and decoder invariant: the writer never holds a full buffer, closed and
failed sessions hold no bytes, at most one chunk is pending, a decode never passes its declared length
or its limit (R39, R40, R41, R312, R322, R324, R366). -/
def Obligations.EveryStepKeepsTheInvariant : Prop :=
  ∀ s t : State, s.ok = true → step s = .next t → t.ok = true

/-- Every step keeps the hash table in canonical form and within its 16384 entries (R42, R187,
R188). The canonical form is the form the model stores the table in (log entry 15). -/
def Obligations.EveryStepKeepsTheHashTable : Prop :=
  ∀ s t : State, htOk s.enc.ht = true → step s = .next t → htOk t.enc.ht = true

/-- The identifier flags `ident_sent` and `ident_seen` and the failures are cleared only by the resets,
and the configuration is changed only by WRITE_REG and RESET (R45, R400, R402 to R404, R438). -/
def Obligations.FlagsAndFailuresClearOnlyByReset : Prop :=
  ∀ s t : State, s.ok = true → step s = .next t →
    (s.w.identSent = true → t.w.identSent = false → runs [0x7D, 0x7F] s) ∧
    (s.r.identSeen = true → t.r.identSeen = false → runs [0x7E, 0x7F] s) ∧
    (∀ c, s.w.phase = .failed c → t.w.phase ≠ .failed c → runs [0x7D, 0x7F] s) ∧
    (∀ c, s.r.fail = some c → t.r.fail ≠ some c → runs [0x7E, 0x7F] s) ∧
    (¬ sameConfig s t → runs [0x51, 0x7F] s)

/-- STATUS always holds the result of the last response: a step either gives no response and leaves STATUS
alone, or gives one and writes its result and the code of the command that ends (R35, R118, R406). -/
def Obligations.StatusMatchesTheLastResponse : Prop :=
  ∀ s t : State, step s = .next t →
    (t.responses = s.responses ∧ t.status = s.status) ∨
    ∃ resp, t.responses = s.responses ++ [resp] ∧ t.engine = .idle ∧
      t.status.result = (match resp with | .ok _ => none | .error c => some c) ∧
      (∀ c rest, s.engine = .idle → s.commands = c :: rest → t.status.lastCmd = c.code) ∧
      (s.engine = .decompressing → t.status.lastCmd = 0x20) ∧
      ((∃ max, s.engine = .reading max) ∨ (∃ max stored, s.engine = .decodingChunk max stored) →
        t.status.lastCmd = 0x40)

/-- No command reports a cause outside its row of the table of commands and kinds (R432), but for
MAX_COMPRESS_LEN in a block whose reading is R182's, the model's choice, held in State (log entry 25,
DESIGN CHOICE): it may report ENCODE_INPUT_TOO_LARGE. Session failures are limited by the invariant ok,
which EveryStepKeepsTheInvariant keeps. -/
def Obligations.EachCommandRaisesOnlyItsCauses : Prop :=
  ∀ (s t : State) (c : Cause), s.ok = true → step s = .next t →
    t.responses = s.responses ++ [.error c] → mayRaise s.policy t.status.lastCmd c

/-- The sink only ever grows, and only by a writer command in an open session; each session is
changed only by its own commands; the source is read only in FR_READ's chunk loop (R81, R83, R403,
R404, R436). The steps of one command are the small steps of log entry 1. -/
def Obligations.ChannelsAndSessionsBelongToTheirCommands : Prop :=
  ∀ s t : State, s.ok = true → step s = .next t →
    s.sink <+: t.sink ∧
    (t.sink ≠ s.sink → runs [0x30, 0x31, 0x32] s ∧ s.w.phase = .opened) ∧
    (t.w ≠ s.w → runs [0x30, 0x31, 0x32, 0x7D, 0x7F] s) ∧
    (t.r ≠ s.r → (∃ max, s.engine = .reading max) ∨
      (∃ max stored, s.engine = .decodingChunk max stored) ∨ runs [0x40, 0x7E, 0x7F] s) ∧
    (t.source ≠ s.source → ∃ max, s.engine = .reading max)
end

