-- ==== Sys2Proof/Laws/Bytes.lean ====
section
/-!
SUPPORT. Byte order and bit fields: the laws of `leBytes`, `leValue` and `field` (R15, R17).
-/
namespace Sys2Proof

@[simp] theorem leBytes_length (k v : Nat) : (leBytes k v).length = k := by
  induction k generalizing v with
  | zero => rfl
  | succ k ih => simp [leBytes, ih]

theorem leValue_leBytes (k v : Nat) : leValue (leBytes k v) = v % 256 ^ k := by
  induction k generalizing v with
  | zero => simp [leBytes, leValue, Nat.mod_one]
  | succ k ih =>
    simp only [leBytes, leValue, ih, BitVec.toNat_ofNat]
    rw [show (256 : Nat) ^ (k + 1) = 256 * 256 ^ k by rw [Nat.pow_succ']]
    exact (Nat.mod_mul ..).symm

theorem leValue_lt (b : List Byte) : leValue b < 256 ^ b.length := by
  induction b with
  | nil => simp [leValue]
  | cons x xs ih =>
    have := x.isLt
    simp only [leValue, List.length_cons, Nat.pow_succ']
    omega

theorem leBytes_leValue (b : List Byte) : leBytes b.length (leValue b) = b := by
  induction b with
  | nil => rfl
  | cons x xs ih =>
    have hx := x.isLt
    have h1 : (x.toNat + 256 * leValue xs) / 256 = leValue xs := by omega
    have h2 : BitVec.ofNat 8 (x.toNat + 256 * leValue xs) = x := by
      apply BitVec.eq_of_toNat_eq
      simp [Nat.add_mod, Nat.mod_eq_of_lt hx]
    simp [leBytes, leValue, h1, h2, ih]

@[simp] theorem chunkHeader_length (ty : Byte) (len : Nat) : (chunkHeader ty len).length = 4 := by
  simp [chunkHeader]

theorem field_lt (t : Byte) (hi lo : Nat) : field t hi lo < 2 ^ (hi + 1 - lo) :=
  Nat.mod_lt _ (Nat.two_pow_pos _)

/-- The type field of a tag byte. -/
theorem field_low (t : Byte) : field t 1 0 = t.toNat % 4 := by simp [field]

/-- The length field of every tag but Copy1's. -/
theorem field_high (t : Byte) : field t 7 2 = t.toNat / 4 := by
  have := t.isLt
  simp only [field]
  omega

end Sys2Proof
end

