-- ==== Sys2Proof/Laws/HashTable.lean ====
section
/-!
SUPPORT. The hash table keeps its canonical form under every operation, and reads what was written
(R42, R48, R189).
-/
namespace Sys2Proof.Machine

theorem htWfFrom_weaken {k : Nat} {low : Option Nat} {t : HashTable}
    (h : htWfFrom (some k) t = true) (hk : ∀ l ∈ low, l < k) : htWfFrom low t = true := by
  cases t with
  | nil => rfl
  | cons e rest =>
    simp only [htWfFrom, Bool.and_eq_true, decide_eq_true_eq] at h ⊢
    refine ⟨⟨fun l hl => ?_, h.1.2⟩, h.2⟩
    have := h.1.1 k rfl
    have := hk l hl
    omega

theorem htWrite_wfFrom {low : Option Nat} {t : HashTable} (h : Nat) (v : BitVec 16)
    (ht : htWfFrom low t = true) (hl : ∀ l ∈ low, l < h) :
    htWfFrom low (htWrite t h v) = true := by
  induction t generalizing low with
  | nil =>
    simp only [htWrite]
    split
    · rfl
    · simp_all [htWfFrom]
  | cons e rest ih =>
    obtain ⟨k, w⟩ := e
    have ht' := ht
    simp only [htWfFrom, Bool.and_eq_true, decide_eq_true_eq] at ht'
    obtain ⟨⟨hlow, hw⟩, hrest⟩ := ht'
    simp only [htWrite]
    split
    · split
      · exact ht
      · simp_all [htWfFrom]
    · split
      · split
        · exact htWfFrom_weaken hrest hlow
        · simp_all [htWfFrom]
      · have := ih (low := some k) hrest (fun l hl' => by cases hl'; omega)
        simp_all [htWfFrom]

/-- A write keeps the canonical form. -/
theorem htWrite_wf {t : HashTable} (h : Nat) (v : BitVec 16) (ht : htWf t = true) :
    htWf (htWrite t h v) = true :=
  htWrite_wfFrom h v ht (fun _ hl => by cases hl)

/-- Below its first index a canonical table reads 0. -/
theorem htRead_below {k : Nat} {t : HashTable} {h : Nat} (ht : htWfFrom (some k) t = true)
    (hk : h ≤ k) : htRead t h = 0 := by
  induction t generalizing k with
  | nil => rfl
  | cons e rest ih =>
    simp only [htWfFrom, Bool.and_eq_true, decide_eq_true_eq] at ht
    have hlt := ht.1.1 k rfl
    simp only [htRead]
    rw [if_neg (by omega)]
    exact ih ht.2 (by omega)

/-- The entry just written is read back. -/
theorem htRead_htWrite_same {low : Option Nat} {t : HashTable} (h : Nat) (v : BitVec 16)
    (ht : htWfFrom low t = true) : htRead (htWrite t h v) h = v := by
  induction t generalizing low with
  | nil =>
    simp only [htWrite]
    split <;> simp_all [htRead]
  | cons e rest ih =>
    obtain ⟨k, w⟩ := e
    simp only [htWfFrom, Bool.and_eq_true, decide_eq_true_eq] at ht
    simp only [htWrite]
    split
    · split
      · next hlt hv =>
        simp only [htRead]
        rw [if_neg (by omega), htRead_below ht.2 (by omega), hv]
      · simp [htRead]
    · split
      · split
        · next heq hv => rw [htRead_below ht.2 (by omega), hv]
        · simp [htRead]
      · simp only [htRead]
        rw [if_neg (by omega)]
        exact ih ht.2

/-- A write leaves every other entry alone. -/
theorem htRead_htWrite_other {t : HashTable} {h h' : Nat} (v : BitVec 16) (hne : h' ≠ h) :
    htRead (htWrite t h v) h' = htRead t h' := by
  induction t with
  | nil =>
    simp only [htWrite]
    split <;> simp_all [htRead]
    omega
  | cons e rest ih =>
    obtain ⟨k, w⟩ := e
    simp only [htWrite]
    split
    · split
      · rfl
      · simp only [htRead]; rw [if_neg (by omega)]
    · split
      · split
        · next heq _ => simp only [htRead]; rw [if_neg (by omega)]
        · next heq _ => simp only [htRead]; rw [if_neg (by omega), if_neg (by omega)]
      · simp only [htRead, ih]

/-- Reset's table, and a cleared one, are canonical. -/
theorem htWf_nil : htWf [] = true := rfl

end Sys2Proof.Machine
end

