-- ==== Sys2Proof/Laws/State.lean ====
section
/-!
SUPPORT. One lemma per field per update of State, so that no later proof unfolds a record update.
-/
namespace Sys2Proof.Machine

section
variable (s : State) (v : Word32)
@[simp] theorem State.setCfgMaxDecode_cfgMaxDecode : (s.setCfgMaxDecode v).cfgMaxDecode = v := rfl
@[simp] theorem State.setCfgMaxDecode_reqIdent : (s.setCfgMaxDecode v).reqIdent = s.reqIdent := rfl
@[simp] theorem State.setCfgMaxDecode_status : (s.setCfgMaxDecode v).status = s.status := rfl
@[simp] theorem State.setCfgMaxDecode_w : (s.setCfgMaxDecode v).w = s.w := rfl
@[simp] theorem State.setCfgMaxDecode_r : (s.setCfgMaxDecode v).r = s.r := rfl
@[simp] theorem State.setCfgMaxDecode_dec : (s.setCfgMaxDecode v).dec = s.dec := rfl
@[simp] theorem State.setCfgMaxDecode_enc : (s.setCfgMaxDecode v).enc = s.enc := rfl
@[simp] theorem State.setCfgMaxDecode_crc : (s.setCfgMaxDecode v).crc = s.crc := rfl
@[simp] theorem State.setCfgMaxDecode_engine : (s.setCfgMaxDecode v).engine = s.engine := rfl
@[simp] theorem State.setCfgMaxDecode_commands : (s.setCfgMaxDecode v).commands = s.commands := rfl
@[simp] theorem State.setCfgMaxDecode_responses : (s.setCfgMaxDecode v).responses = s.responses := rfl
@[simp] theorem State.setCfgMaxDecode_source : (s.setCfgMaxDecode v).source = s.source := rfl
@[simp] theorem State.setCfgMaxDecode_sinkScript : (s.setCfgMaxDecode v).sinkScript = s.sinkScript := rfl
@[simp] theorem State.setCfgMaxDecode_sink : (s.setCfgMaxDecode v).sink = s.sink := rfl
@[simp] theorem State.setCfgMaxDecode_policy : (s.setCfgMaxDecode v).policy = s.policy := rfl
end

section
variable (s : State) (v : Bool)
@[simp] theorem State.setReqIdent_cfgMaxDecode : (s.setReqIdent v).cfgMaxDecode = s.cfgMaxDecode := rfl
@[simp] theorem State.setReqIdent_reqIdent : (s.setReqIdent v).reqIdent = v := rfl
@[simp] theorem State.setReqIdent_status : (s.setReqIdent v).status = s.status := rfl
@[simp] theorem State.setReqIdent_w : (s.setReqIdent v).w = s.w := rfl
@[simp] theorem State.setReqIdent_r : (s.setReqIdent v).r = s.r := rfl
@[simp] theorem State.setReqIdent_dec : (s.setReqIdent v).dec = s.dec := rfl
@[simp] theorem State.setReqIdent_enc : (s.setReqIdent v).enc = s.enc := rfl
@[simp] theorem State.setReqIdent_crc : (s.setReqIdent v).crc = s.crc := rfl
@[simp] theorem State.setReqIdent_engine : (s.setReqIdent v).engine = s.engine := rfl
@[simp] theorem State.setReqIdent_commands : (s.setReqIdent v).commands = s.commands := rfl
@[simp] theorem State.setReqIdent_responses : (s.setReqIdent v).responses = s.responses := rfl
@[simp] theorem State.setReqIdent_source : (s.setReqIdent v).source = s.source := rfl
@[simp] theorem State.setReqIdent_sinkScript : (s.setReqIdent v).sinkScript = s.sinkScript := rfl
@[simp] theorem State.setReqIdent_sink : (s.setReqIdent v).sink = s.sink := rfl
@[simp] theorem State.setReqIdent_policy : (s.setReqIdent v).policy = s.policy := rfl
end

section
variable (s : State) (v : Status)
@[simp] theorem State.setStatus_cfgMaxDecode : (s.setStatus v).cfgMaxDecode = s.cfgMaxDecode := rfl
@[simp] theorem State.setStatus_reqIdent : (s.setStatus v).reqIdent = s.reqIdent := rfl
@[simp] theorem State.setStatus_status : (s.setStatus v).status = v := rfl
@[simp] theorem State.setStatus_w : (s.setStatus v).w = s.w := rfl
@[simp] theorem State.setStatus_r : (s.setStatus v).r = s.r := rfl
@[simp] theorem State.setStatus_dec : (s.setStatus v).dec = s.dec := rfl
@[simp] theorem State.setStatus_enc : (s.setStatus v).enc = s.enc := rfl
@[simp] theorem State.setStatus_crc : (s.setStatus v).crc = s.crc := rfl
@[simp] theorem State.setStatus_engine : (s.setStatus v).engine = s.engine := rfl
@[simp] theorem State.setStatus_commands : (s.setStatus v).commands = s.commands := rfl
@[simp] theorem State.setStatus_responses : (s.setStatus v).responses = s.responses := rfl
@[simp] theorem State.setStatus_source : (s.setStatus v).source = s.source := rfl
@[simp] theorem State.setStatus_sinkScript : (s.setStatus v).sinkScript = s.sinkScript := rfl
@[simp] theorem State.setStatus_sink : (s.setStatus v).sink = s.sink := rfl
@[simp] theorem State.setStatus_policy : (s.setStatus v).policy = s.policy := rfl
end

section
variable (s : State) (v : Writer)
@[simp] theorem State.setW_cfgMaxDecode : (s.setW v).cfgMaxDecode = s.cfgMaxDecode := rfl
@[simp] theorem State.setW_reqIdent : (s.setW v).reqIdent = s.reqIdent := rfl
@[simp] theorem State.setW_status : (s.setW v).status = s.status := rfl
@[simp] theorem State.setW_w : (s.setW v).w = v := rfl
@[simp] theorem State.setW_r : (s.setW v).r = s.r := rfl
@[simp] theorem State.setW_dec : (s.setW v).dec = s.dec := rfl
@[simp] theorem State.setW_enc : (s.setW v).enc = s.enc := rfl
@[simp] theorem State.setW_crc : (s.setW v).crc = s.crc := rfl
@[simp] theorem State.setW_engine : (s.setW v).engine = s.engine := rfl
@[simp] theorem State.setW_commands : (s.setW v).commands = s.commands := rfl
@[simp] theorem State.setW_responses : (s.setW v).responses = s.responses := rfl
@[simp] theorem State.setW_source : (s.setW v).source = s.source := rfl
@[simp] theorem State.setW_sinkScript : (s.setW v).sinkScript = s.sinkScript := rfl
@[simp] theorem State.setW_sink : (s.setW v).sink = s.sink := rfl
@[simp] theorem State.setW_policy : (s.setW v).policy = s.policy := rfl
end

section
variable (s : State) (v : Reader)
@[simp] theorem State.setR_cfgMaxDecode : (s.setR v).cfgMaxDecode = s.cfgMaxDecode := rfl
@[simp] theorem State.setR_reqIdent : (s.setR v).reqIdent = s.reqIdent := rfl
@[simp] theorem State.setR_status : (s.setR v).status = s.status := rfl
@[simp] theorem State.setR_w : (s.setR v).w = s.w := rfl
@[simp] theorem State.setR_r : (s.setR v).r = v := rfl
@[simp] theorem State.setR_dec : (s.setR v).dec = s.dec := rfl
@[simp] theorem State.setR_enc : (s.setR v).enc = s.enc := rfl
@[simp] theorem State.setR_crc : (s.setR v).crc = s.crc := rfl
@[simp] theorem State.setR_engine : (s.setR v).engine = s.engine := rfl
@[simp] theorem State.setR_commands : (s.setR v).commands = s.commands := rfl
@[simp] theorem State.setR_responses : (s.setR v).responses = s.responses := rfl
@[simp] theorem State.setR_source : (s.setR v).source = s.source := rfl
@[simp] theorem State.setR_sinkScript : (s.setR v).sinkScript = s.sinkScript := rfl
@[simp] theorem State.setR_sink : (s.setR v).sink = s.sink := rfl
@[simp] theorem State.setR_policy : (s.setR v).policy = s.policy := rfl
end

section
variable (s : State) (v : Decoder)
@[simp] theorem State.setDec_cfgMaxDecode : (s.setDec v).cfgMaxDecode = s.cfgMaxDecode := rfl
@[simp] theorem State.setDec_reqIdent : (s.setDec v).reqIdent = s.reqIdent := rfl
@[simp] theorem State.setDec_status : (s.setDec v).status = s.status := rfl
@[simp] theorem State.setDec_w : (s.setDec v).w = s.w := rfl
@[simp] theorem State.setDec_r : (s.setDec v).r = s.r := rfl
@[simp] theorem State.setDec_dec : (s.setDec v).dec = v := rfl
@[simp] theorem State.setDec_enc : (s.setDec v).enc = s.enc := rfl
@[simp] theorem State.setDec_crc : (s.setDec v).crc = s.crc := rfl
@[simp] theorem State.setDec_engine : (s.setDec v).engine = s.engine := rfl
@[simp] theorem State.setDec_commands : (s.setDec v).commands = s.commands := rfl
@[simp] theorem State.setDec_responses : (s.setDec v).responses = s.responses := rfl
@[simp] theorem State.setDec_source : (s.setDec v).source = s.source := rfl
@[simp] theorem State.setDec_sinkScript : (s.setDec v).sinkScript = s.sinkScript := rfl
@[simp] theorem State.setDec_sink : (s.setDec v).sink = s.sink := rfl
@[simp] theorem State.setDec_policy : (s.setDec v).policy = s.policy := rfl
end

section
variable (s : State) (v : EncoderRegs)
@[simp] theorem State.setEnc_cfgMaxDecode : (s.setEnc v).cfgMaxDecode = s.cfgMaxDecode := rfl
@[simp] theorem State.setEnc_reqIdent : (s.setEnc v).reqIdent = s.reqIdent := rfl
@[simp] theorem State.setEnc_status : (s.setEnc v).status = s.status := rfl
@[simp] theorem State.setEnc_w : (s.setEnc v).w = s.w := rfl
@[simp] theorem State.setEnc_r : (s.setEnc v).r = s.r := rfl
@[simp] theorem State.setEnc_dec : (s.setEnc v).dec = s.dec := rfl
@[simp] theorem State.setEnc_enc : (s.setEnc v).enc = v := rfl
@[simp] theorem State.setEnc_crc : (s.setEnc v).crc = s.crc := rfl
@[simp] theorem State.setEnc_engine : (s.setEnc v).engine = s.engine := rfl
@[simp] theorem State.setEnc_commands : (s.setEnc v).commands = s.commands := rfl
@[simp] theorem State.setEnc_responses : (s.setEnc v).responses = s.responses := rfl
@[simp] theorem State.setEnc_source : (s.setEnc v).source = s.source := rfl
@[simp] theorem State.setEnc_sinkScript : (s.setEnc v).sinkScript = s.sinkScript := rfl
@[simp] theorem State.setEnc_sink : (s.setEnc v).sink = s.sink := rfl
@[simp] theorem State.setEnc_policy : (s.setEnc v).policy = s.policy := rfl
end

section
variable (s : State) (v : Word32)
@[simp] theorem State.setCrc_cfgMaxDecode : (s.setCrc v).cfgMaxDecode = s.cfgMaxDecode := rfl
@[simp] theorem State.setCrc_reqIdent : (s.setCrc v).reqIdent = s.reqIdent := rfl
@[simp] theorem State.setCrc_status : (s.setCrc v).status = s.status := rfl
@[simp] theorem State.setCrc_w : (s.setCrc v).w = s.w := rfl
@[simp] theorem State.setCrc_r : (s.setCrc v).r = s.r := rfl
@[simp] theorem State.setCrc_dec : (s.setCrc v).dec = s.dec := rfl
@[simp] theorem State.setCrc_enc : (s.setCrc v).enc = s.enc := rfl
@[simp] theorem State.setCrc_crc : (s.setCrc v).crc = v := rfl
@[simp] theorem State.setCrc_engine : (s.setCrc v).engine = s.engine := rfl
@[simp] theorem State.setCrc_commands : (s.setCrc v).commands = s.commands := rfl
@[simp] theorem State.setCrc_responses : (s.setCrc v).responses = s.responses := rfl
@[simp] theorem State.setCrc_source : (s.setCrc v).source = s.source := rfl
@[simp] theorem State.setCrc_sinkScript : (s.setCrc v).sinkScript = s.sinkScript := rfl
@[simp] theorem State.setCrc_sink : (s.setCrc v).sink = s.sink := rfl
@[simp] theorem State.setCrc_policy : (s.setCrc v).policy = s.policy := rfl
end

section
variable (s : State) (v : Engine)
@[simp] theorem State.setEngine_cfgMaxDecode : (s.setEngine v).cfgMaxDecode = s.cfgMaxDecode := rfl
@[simp] theorem State.setEngine_reqIdent : (s.setEngine v).reqIdent = s.reqIdent := rfl
@[simp] theorem State.setEngine_status : (s.setEngine v).status = s.status := rfl
@[simp] theorem State.setEngine_w : (s.setEngine v).w = s.w := rfl
@[simp] theorem State.setEngine_r : (s.setEngine v).r = s.r := rfl
@[simp] theorem State.setEngine_dec : (s.setEngine v).dec = s.dec := rfl
@[simp] theorem State.setEngine_enc : (s.setEngine v).enc = s.enc := rfl
@[simp] theorem State.setEngine_crc : (s.setEngine v).crc = s.crc := rfl
@[simp] theorem State.setEngine_engine : (s.setEngine v).engine = v := rfl
@[simp] theorem State.setEngine_commands : (s.setEngine v).commands = s.commands := rfl
@[simp] theorem State.setEngine_responses : (s.setEngine v).responses = s.responses := rfl
@[simp] theorem State.setEngine_source : (s.setEngine v).source = s.source := rfl
@[simp] theorem State.setEngine_sinkScript : (s.setEngine v).sinkScript = s.sinkScript := rfl
@[simp] theorem State.setEngine_sink : (s.setEngine v).sink = s.sink := rfl
@[simp] theorem State.setEngine_policy : (s.setEngine v).policy = s.policy := rfl
end

section
variable (s : State) (v : List HostCommand)
@[simp] theorem State.setCommands_cfgMaxDecode : (s.setCommands v).cfgMaxDecode = s.cfgMaxDecode := rfl
@[simp] theorem State.setCommands_reqIdent : (s.setCommands v).reqIdent = s.reqIdent := rfl
@[simp] theorem State.setCommands_status : (s.setCommands v).status = s.status := rfl
@[simp] theorem State.setCommands_w : (s.setCommands v).w = s.w := rfl
@[simp] theorem State.setCommands_r : (s.setCommands v).r = s.r := rfl
@[simp] theorem State.setCommands_dec : (s.setCommands v).dec = s.dec := rfl
@[simp] theorem State.setCommands_enc : (s.setCommands v).enc = s.enc := rfl
@[simp] theorem State.setCommands_crc : (s.setCommands v).crc = s.crc := rfl
@[simp] theorem State.setCommands_engine : (s.setCommands v).engine = s.engine := rfl
@[simp] theorem State.setCommands_commands : (s.setCommands v).commands = v := rfl
@[simp] theorem State.setCommands_responses : (s.setCommands v).responses = s.responses := rfl
@[simp] theorem State.setCommands_source : (s.setCommands v).source = s.source := rfl
@[simp] theorem State.setCommands_sinkScript : (s.setCommands v).sinkScript = s.sinkScript := rfl
@[simp] theorem State.setCommands_sink : (s.setCommands v).sink = s.sink := rfl
@[simp] theorem State.setCommands_policy : (s.setCommands v).policy = s.policy := rfl
end

section
variable (s : State) (v : List Response)
@[simp] theorem State.setResponses_cfgMaxDecode : (s.setResponses v).cfgMaxDecode = s.cfgMaxDecode := rfl
@[simp] theorem State.setResponses_reqIdent : (s.setResponses v).reqIdent = s.reqIdent := rfl
@[simp] theorem State.setResponses_status : (s.setResponses v).status = s.status := rfl
@[simp] theorem State.setResponses_w : (s.setResponses v).w = s.w := rfl
@[simp] theorem State.setResponses_r : (s.setResponses v).r = s.r := rfl
@[simp] theorem State.setResponses_dec : (s.setResponses v).dec = s.dec := rfl
@[simp] theorem State.setResponses_enc : (s.setResponses v).enc = s.enc := rfl
@[simp] theorem State.setResponses_crc : (s.setResponses v).crc = s.crc := rfl
@[simp] theorem State.setResponses_engine : (s.setResponses v).engine = s.engine := rfl
@[simp] theorem State.setResponses_commands : (s.setResponses v).commands = s.commands := rfl
@[simp] theorem State.setResponses_responses : (s.setResponses v).responses = v := rfl
@[simp] theorem State.setResponses_source : (s.setResponses v).source = s.source := rfl
@[simp] theorem State.setResponses_sinkScript : (s.setResponses v).sinkScript = s.sinkScript := rfl
@[simp] theorem State.setResponses_sink : (s.setResponses v).sink = s.sink := rfl
@[simp] theorem State.setResponses_policy : (s.setResponses v).policy = s.policy := rfl
end

section
variable (s : State) (v : Source)
@[simp] theorem State.setSource_cfgMaxDecode : (s.setSource v).cfgMaxDecode = s.cfgMaxDecode := rfl
@[simp] theorem State.setSource_reqIdent : (s.setSource v).reqIdent = s.reqIdent := rfl
@[simp] theorem State.setSource_status : (s.setSource v).status = s.status := rfl
@[simp] theorem State.setSource_w : (s.setSource v).w = s.w := rfl
@[simp] theorem State.setSource_r : (s.setSource v).r = s.r := rfl
@[simp] theorem State.setSource_dec : (s.setSource v).dec = s.dec := rfl
@[simp] theorem State.setSource_enc : (s.setSource v).enc = s.enc := rfl
@[simp] theorem State.setSource_crc : (s.setSource v).crc = s.crc := rfl
@[simp] theorem State.setSource_engine : (s.setSource v).engine = s.engine := rfl
@[simp] theorem State.setSource_commands : (s.setSource v).commands = s.commands := rfl
@[simp] theorem State.setSource_responses : (s.setSource v).responses = s.responses := rfl
@[simp] theorem State.setSource_source : (s.setSource v).source = v := rfl
@[simp] theorem State.setSource_sinkScript : (s.setSource v).sinkScript = s.sinkScript := rfl
@[simp] theorem State.setSource_sink : (s.setSource v).sink = s.sink := rfl
@[simp] theorem State.setSource_policy : (s.setSource v).policy = s.policy := rfl
end

section
variable (s : State) (v : SinkScript)
@[simp] theorem State.setSinkScript_cfgMaxDecode : (s.setSinkScript v).cfgMaxDecode = s.cfgMaxDecode := rfl
@[simp] theorem State.setSinkScript_reqIdent : (s.setSinkScript v).reqIdent = s.reqIdent := rfl
@[simp] theorem State.setSinkScript_status : (s.setSinkScript v).status = s.status := rfl
@[simp] theorem State.setSinkScript_w : (s.setSinkScript v).w = s.w := rfl
@[simp] theorem State.setSinkScript_r : (s.setSinkScript v).r = s.r := rfl
@[simp] theorem State.setSinkScript_dec : (s.setSinkScript v).dec = s.dec := rfl
@[simp] theorem State.setSinkScript_enc : (s.setSinkScript v).enc = s.enc := rfl
@[simp] theorem State.setSinkScript_crc : (s.setSinkScript v).crc = s.crc := rfl
@[simp] theorem State.setSinkScript_engine : (s.setSinkScript v).engine = s.engine := rfl
@[simp] theorem State.setSinkScript_commands : (s.setSinkScript v).commands = s.commands := rfl
@[simp] theorem State.setSinkScript_responses : (s.setSinkScript v).responses = s.responses := rfl
@[simp] theorem State.setSinkScript_source : (s.setSinkScript v).source = s.source := rfl
@[simp] theorem State.setSinkScript_sinkScript : (s.setSinkScript v).sinkScript = v := rfl
@[simp] theorem State.setSinkScript_sink : (s.setSinkScript v).sink = s.sink := rfl
@[simp] theorem State.setSinkScript_policy : (s.setSinkScript v).policy = s.policy := rfl
end

section
variable (s : State) (v : List Byte)
@[simp] theorem State.setSink_cfgMaxDecode : (s.setSink v).cfgMaxDecode = s.cfgMaxDecode := rfl
@[simp] theorem State.setSink_reqIdent : (s.setSink v).reqIdent = s.reqIdent := rfl
@[simp] theorem State.setSink_status : (s.setSink v).status = s.status := rfl
@[simp] theorem State.setSink_w : (s.setSink v).w = s.w := rfl
@[simp] theorem State.setSink_r : (s.setSink v).r = s.r := rfl
@[simp] theorem State.setSink_dec : (s.setSink v).dec = s.dec := rfl
@[simp] theorem State.setSink_enc : (s.setSink v).enc = s.enc := rfl
@[simp] theorem State.setSink_crc : (s.setSink v).crc = s.crc := rfl
@[simp] theorem State.setSink_engine : (s.setSink v).engine = s.engine := rfl
@[simp] theorem State.setSink_commands : (s.setSink v).commands = s.commands := rfl
@[simp] theorem State.setSink_responses : (s.setSink v).responses = s.responses := rfl
@[simp] theorem State.setSink_source : (s.setSink v).source = s.source := rfl
@[simp] theorem State.setSink_sinkScript : (s.setSink v).sinkScript = s.sinkScript := rfl
@[simp] theorem State.setSink_sink : (s.setSink v).sink = v := rfl
@[simp] theorem State.setSink_policy : (s.setSink v).policy = s.policy := rfl
end

/-! ### Completing a command and error entry -/

section
variable (cmd : Byte) (result : Option Cause) (resp : Response) (s : State)
@[simp] theorem finish_cfgMaxDecode : (finish cmd result resp s).cfgMaxDecode = s.cfgMaxDecode := rfl
@[simp] theorem finish_reqIdent : (finish cmd result resp s).reqIdent = s.reqIdent := rfl
@[simp] theorem finish_status : (finish cmd result resp s).status = { result := result, lastCmd := cmd } := rfl
@[simp] theorem finish_w : (finish cmd result resp s).w = s.w := rfl
@[simp] theorem finish_r : (finish cmd result resp s).r = s.r := rfl
@[simp] theorem finish_dec : (finish cmd result resp s).dec = s.dec := rfl
@[simp] theorem finish_enc : (finish cmd result resp s).enc = s.enc := rfl
@[simp] theorem finish_crc : (finish cmd result resp s).crc = s.crc := rfl
@[simp] theorem finish_engine : (finish cmd result resp s).engine = .idle := rfl
@[simp] theorem finish_commands : (finish cmd result resp s).commands = s.commands := rfl
@[simp] theorem finish_responses : (finish cmd result resp s).responses = s.responses ++ [resp] := rfl
@[simp] theorem finish_source : (finish cmd result resp s).source = s.source := rfl
@[simp] theorem finish_sinkScript : (finish cmd result resp s).sinkScript = s.sinkScript := rfl
@[simp] theorem finish_sink : (finish cmd result resp s).sink = s.sink := rfl
@[simp] theorem finish_policy : (finish cmd result resp s).policy = s.policy := rfl
end

section
variable (cmd : Byte) (res : Results) (s : State)
@[simp] theorem complete_cfgMaxDecode : (complete cmd res s).cfgMaxDecode = s.cfgMaxDecode := rfl
@[simp] theorem complete_reqIdent : (complete cmd res s).reqIdent = s.reqIdent := rfl
@[simp] theorem complete_status : (complete cmd res s).status = { result := none, lastCmd := cmd } := rfl
@[simp] theorem complete_w : (complete cmd res s).w = s.w := rfl
@[simp] theorem complete_r : (complete cmd res s).r = s.r := rfl
@[simp] theorem complete_dec : (complete cmd res s).dec = s.dec := rfl
@[simp] theorem complete_enc : (complete cmd res s).enc = s.enc := rfl
@[simp] theorem complete_crc : (complete cmd res s).crc = s.crc := rfl
@[simp] theorem complete_engine : (complete cmd res s).engine = .idle := rfl
@[simp] theorem complete_commands : (complete cmd res s).commands = s.commands := rfl
@[simp] theorem complete_responses : (complete cmd res s).responses = s.responses ++ [.ok res] := rfl
@[simp] theorem complete_source : (complete cmd res s).source = s.source := rfl
@[simp] theorem complete_sinkScript : (complete cmd res s).sinkScript = s.sinkScript := rfl
@[simp] theorem complete_sink : (complete cmd res s).sink = s.sink := rfl
@[simp] theorem complete_policy : (complete cmd res s).policy = s.policy := rfl
end

section
variable (cmd : Byte) (c : Cause) (s : State)
@[simp] theorem raise_cfgMaxDecode : (raise cmd c s).cfgMaxDecode = s.cfgMaxDecode := rfl
@[simp] theorem raise_reqIdent : (raise cmd c s).reqIdent = s.reqIdent := rfl
@[simp] theorem raise_status : (raise cmd c s).status = { result := some c, lastCmd := cmd } := rfl
@[simp] theorem raise_w : (raise cmd c s).w = writerAfterRaise cmd c s.w := rfl
@[simp] theorem raise_r : (raise cmd c s).r = readerAfterRaise cmd c s.r := rfl
@[simp] theorem raise_dec : (raise cmd c s).dec = Decoder.reset := rfl
@[simp] theorem raise_enc : (raise cmd c s).enc = s.enc := rfl
@[simp] theorem raise_crc : (raise cmd c s).crc = s.crc := rfl
@[simp] theorem raise_engine : (raise cmd c s).engine = .idle := rfl
@[simp] theorem raise_commands : (raise cmd c s).commands = s.commands := rfl
@[simp] theorem raise_responses : (raise cmd c s).responses = s.responses ++ [.error c] := rfl
@[simp] theorem raise_source : (raise cmd c s).source = s.source := rfl
@[simp] theorem raise_sinkScript : (raise cmd c s).sinkScript = s.sinkScript := rfl
@[simp] theorem raise_sink : (raise cmd c s).sink = s.sink := rfl
@[simp] theorem raise_policy : (raise cmd c s).policy = s.policy := rfl
end

end Sys2Proof.Machine
end

