-- ==== Sys2Proof/Laws/Ops.lean ====
section
/-!
SUPPORT. What the shared operations can change: one lemma each, cited instead of unfolding them.
-/
namespace Sys2Proof.Machine

/-! ### The source -/

@[simp] theorem restEvent_nil (coming : List Config.SourceEvent) : restEvent [] coming = coming := rfl
@[simp] theorem restEvent_cons (b : Byte) (bs : List Byte) (coming : List Config.SourceEvent) :
    restEvent (b :: bs) coming = .data b bs :: coming := rfl
@[simp] theorem Source.giveFirst_nil (q : Source) : q.giveFirst [] = q := rfl

/-- The next answer is the first one listed (R77). -/
@[simp] theorem Source.next_listed (e : Config.SourceEvent) (coming : List Config.SourceEvent)
    (rest : SourceRest) : Source.next ⟨e :: coming, rest⟩ = (e, ⟨coming, rest⟩) := rfl

/-- With no answer listed, a source that ends reports `EOF` and stays as it is. -/
@[simp] theorem Source.next_ends : Source.next ⟨[], .ends⟩ = (.eof, ⟨[], .ends⟩) := rfl

/-- With no answer listed, an oracle gives its next answer (R13). -/
@[simp] theorem Source.next_oracle (n k : Nat) :
    Source.next ⟨[], .oracle n k⟩ = (Config.sourceOracle n k, ⟨[], .oracle n (k + 1)⟩) := rfl

/-- A source with a run of bytes to give first gives that run next. -/
@[simp] theorem Source.next_giveFirst (b : Byte) (bs : List Byte) (q : Source) :
    (q.giveFirst (b :: bs)).next = (.data b bs, q) := rfl

/-- A source read changes only the source and the count of consumed bytes (R77). -/
theorem sourceRead_frame (k : Nat) (s : State) :
    ∃ src n, sourceRead k s = .eof (s.setSource src) ∨ sourceRead k s = .ioFail (s.setSource src) ∨
      ∃ b, sourceRead k s = .bytes b ((s.setSource src).setR { s.r with consumed := n }) := by
  unfold sourceRead
  split
  · next q _ => exact ⟨q, 0, .inl rfl⟩
  · next q _ => exact ⟨q, 0, .inr (.inl rfl)⟩
  · exact ⟨_, _, .inr (.inr ⟨_, rfl⟩)⟩

/-- The state a source read loop ends in. -/
def ExactRead.state : ExactRead → State
  | .full _ s | .short _ s | .ioFail s => s

theorem sourceReadLoop_frame (fuel k : Nat) (got : List Byte) (s : State) :
    ∃ src n, (sourceReadLoop fuel k got s).state
      = (s.setSource src).setR { s.r with consumed := n } := by
  induction fuel generalizing k got s with
  | zero =>
    refine ⟨s.source, s.r.consumed, ?_⟩
    unfold sourceReadLoop
    split <;> rfl
  | succ fuel ih =>
    unfold sourceReadLoop
    split
    · exact ⟨s.source, s.r.consumed, rfl⟩
    · obtain ⟨src, n, h | h | ⟨b, h⟩⟩ := sourceRead_frame k s
      · rw [h]; exact ⟨src, s.r.consumed, rfl⟩
      · rw [h]; exact ⟨src, s.r.consumed, rfl⟩
      · rw [h]
        obtain ⟨src', n', h'⟩ :=
          ih (k - b.length) (got ++ b) ((s.setSource src).setR { s.r with consumed := n })
        exact ⟨src', n', h'⟩

/-- `SourceReadExact` changes only the source and the count of consumed bytes (R80). -/
theorem sourceReadExact_frame (k : Nat) (s : State) :
    ∃ src n, (sourceReadExact k s).state = (s.setSource src).setR { s.r with consumed := n } :=
  sourceReadLoop_frame k k [] s

/-! ### The sink -/

/-- The state an attempt ends in. -/
def Attempt.state : Attempt → State
  | .done s | .failed _ s => s

/-- The sink never accepts more than the write holds (R78). -/
theorem SinkScript.answer_le {k a : Nat} {q q' : SinkScript} (h : q.answer k = (.accept a, q')) :
    a ≤ k := by
  have clip : ∀ x : Config.SinkAnswer, clipAnswer k x = .accept a → a ≤ k := by
    intro x hx
    cases x with
    | accept m => cases hx; exact Nat.min_le_right m k
    | ioFail => cases hx
  unfold SinkScript.answer at h
  split at h
  · exact clip _ (congrArg Prod.fst h)
  · split at h
    · cases h; exact Nat.le_refl k
    · exact clip _ (congrArg Prod.fst h)

/-- A sink with no answer listed that accepts everything accepts the whole write. -/
@[simp] theorem SinkScript.answer_accepts (k : Nat) :
    SinkScript.answer k ⟨[], .accepts⟩ = (.accept k, ⟨[], .accepts⟩) := rfl

theorem sinkWriteLoop_frame (fuel : Nat) (b : List Byte) (s : State) :
    ∃ script out, (sinkWriteLoop fuel b s).state = (s.setSinkScript script).setSink out := by
  induction fuel generalizing b s with
  | zero =>
    refine ⟨s.sinkScript, s.sink, ?_⟩
    unfold sinkWriteLoop
    split <;> rfl
  | succ fuel ih =>
    unfold sinkWriteLoop
    split
    · exact ⟨s.sinkScript, s.sink, rfl⟩
    · split
      · next q _ => exact ⟨q, s.sink, rfl⟩
      · next a q _ =>
        split
        · exact ⟨q, s.sink, rfl⟩
        · obtain ⟨script, out, h⟩ := ih (b.drop a) ((s.setSinkScript q).setSink (s.sink ++ b.take a))
          exact ⟨script, out, h⟩

/-- `SinkWriteAll` changes only the sink and its coming answers (R79). -/
theorem sinkWriteAll_frame (b : List Byte) (s : State) :
    ∃ script out, (sinkWriteAll b s).state = (s.setSinkScript script).setSink out :=
  sinkWriteLoop_frame b.length b s

/-! ### Elements and chunks -/

/-- What an element can do (R244): with no decode loop it stops; in one it writes DST and advances the
cursor, or raises its error. -/
theorem runElement_cases (k : Nat) (e : Except Cause (List Byte)) (s : State) :
    (runElement k e s = .fault .noDecodeInProgress ∧
        (s.engine = .idle ∨ ∃ max, s.engine = .reading max)) ∨
    (∃ dst, e = .ok dst ∧
        runElement k e s = .next (s.setDec { s.dec with dst := dst, pc := s.dec.pc + k })) ∨
    (∃ c, e = .error c ∧ runElement k e s = raiseDecode c s) := by
  unfold runElement
  split
  · next h => exact .inl ⟨rfl, .inl h⟩
  · next m h => exact .inl ⟨rfl, .inr ⟨m, h⟩⟩
  all_goals
    cases e with
    | ok dst => exact .inr (.inl ⟨dst, rfl, rfl⟩)
    | error c => exact .inr (.inr ⟨c, rfl, rfl⟩)

/-- What a chunk can do (R352): with no FR_READ it stops; in one it raises a header error before any
payload byte is read, fails on its payload, or is dispatched on the whole payload. -/
theorem runChunk_cases (ty : Byte) (len : Nat) (s : State)
    (dispatch : Word64 → List Byte → State → State) :
    (runChunk ty len s dispatch = .fault .noReadInProgress ∧ ∀ max, s.engine ≠ .reading max) ∨
    ∃ max, s.engine = .reading max ∧
      ((∃ c, checkHeader ty len s = some c ∧
          runChunk ty len s dispatch = .next (raise cmdFrRead c s)) ∨
       (checkHeader ty len s = none ∧
          ((∃ s', sourceReadExact len s = .ioFail s' ∧
              runChunk ty len s dispatch = .next (raise cmdFrRead .sourceIo s')) ∨
           (∃ b s', sourceReadExact len s = .short b s' ∧
              runChunk ty len s dispatch = .next (raise cmdFrRead .truncatedStream s')) ∨
           (∃ p s', sourceReadExact len s = .full p s' ∧
              runChunk ty len s dispatch = .next (dispatch max p s'))))) := by
  unfold runChunk
  split
  · next max h =>
    refine .inr ⟨max, h, ?_⟩
    split
    · next c hc => exact .inl ⟨c, hc, rfl⟩
    · next hc =>
      refine .inr ⟨hc, ?_⟩
      split
      · next s' h' => exact .inl ⟨s', h', rfl⟩
      · next b s' h' => exact .inr (.inl ⟨b, s', h', rfl⟩)
      · next p s' h' => exact .inr (.inr ⟨p, s', h', rfl⟩)
  all_goals
    next h => exact .inl ⟨rfl, by intro max hm; simp [h] at hm⟩

/-- What a writer command can do (R310): the sticky error, the closed session's answer, or its own
steps. -/
theorem writerEntry_cases (cmd : Byte) (s : State) (body : State → State) :
    (∃ c, s.w.phase = .failed c ∧ writerEntry cmd s body = .next (raise cmd c s)) ∨
    (s.w.phase = .closed ∧ cmd = cmdFwClose ∧
        writerEntry cmd s body = .next (complete cmd .none s)) ∨
    (s.w.phase = .closed ∧ cmd ≠ cmdFwClose ∧
        writerEntry cmd s body = .next (raise cmd .sessionClosed s)) ∨
    (s.w.phase = .opened ∧ writerEntry cmd s body = .next (body s)) := by
  unfold writerEntry
  split
  · next c h => exact .inl ⟨c, h, rfl⟩
  · next h =>
    split
    · next hc => exact .inr (.inl ⟨h, hc, rfl⟩)
    · next hc => exact .inr (.inr (.inl ⟨h, hc, rfl⟩))
  · next h => exact .inr (.inr (.inr ⟨h, rfl⟩))

end Sys2Proof.Machine
end

