-- ==== Sys2Proof/Laws/PerInstr.lean ====
section
/-!
SUPPORT. Statements for all instructions, one lemma per constructor.
-/
namespace Sys2Proof.Laws.EncodedSize

/-- The raw form the encoder gives an instruction has the instruction's size in bytes (R107, R113,
R118). -/
def Statement (i : Instr) : Prop := (encode i).size = i.size

theorem lit (b : List Byte) : Statement (.lit b) := by
  simp [Statement, encode, encodeElem, Encoded.size, Instr.size]; omega

theorem litX1 (b : List Byte) : Statement (.litX1 b) := by
  simp [Statement, encode, encodeElem, encodeLiteralX, Encoded.size, Instr.size]; omega

theorem litX2 (b : List Byte) : Statement (.litX2 b) := by
  simp [Statement, encode, encodeElem, encodeLiteralX, Encoded.size, Instr.size]; omega

theorem litX3 (b : List Byte) : Statement (.litX3 b) := by
  simp [Statement, encode, encodeElem, encodeLiteralX, Encoded.size, Instr.size]; omega

theorem litX4 (b : List Byte) : Statement (.litX4 b) := by
  simp [Statement, encode, encodeElem, encodeLiteralX, Encoded.size, Instr.size]; omega

theorem copy1 (o : Nat) (l : Nat) : Statement (.copy1 o l) := by
  simp [Statement, encode, encodeElem, Encoded.size, Instr.size]

theorem copy2 (o : Nat) (l : Nat) : Statement (.copy2 o l) := by
  simp [Statement, encode, encodeElem, Encoded.size, Instr.size]

theorem copy4 (o : Nat) (l : Nat) : Statement (.copy4 o l) := by
  simp [Statement, encode, encodeElem, Encoded.size, Instr.size]

theorem chunkCompressed (l : Nat) : Statement (.chunkCompressed l) := by
  simp [Statement, encode, Encoded.size, Instr.size]

theorem chunkUncompressed (l : Nat) : Statement (.chunkUncompressed l) := by
  simp [Statement, encode, Encoded.size, Instr.size]

theorem chunkReserved (t : Byte) (l : Nat) : Statement (.chunkReserved t l) := by
  simp [Statement, encode, Encoded.size, Instr.size]

theorem chunkSkip (t : Byte) (l : Nat) : Statement (.chunkSkip t l) := by
  simp [Statement, encode, Encoded.size, Instr.size]

theorem chunkPad (l : Nat) : Statement (.chunkPad l) := by
  simp [Statement, encode, Encoded.size, Instr.size]

theorem chunkIdent (l : Nat) : Statement (.chunkIdent l) := by
  simp [Statement, encode, Encoded.size, Instr.size]

theorem varintEncode (n : Word64) : Statement (.varintEncode n) := rfl

theorem varintDecode (b : List Byte) : Statement (.varintDecode b) := rfl

theorem maxCompressLen (n : Word64) : Statement (.maxCompressLen n) := rfl

theorem compress (b : List Byte) : Statement (.compress b) := rfl

theorem decompress (b : List Byte) : Statement (.decompress b) := rfl

theorem fwWrite (b : List Byte) : Statement (.fwWrite b) := rfl

theorem fwFlush : Statement (.fwFlush) := rfl

theorem fwClose : Statement (.fwClose) := rfl

theorem frRead (n : Word64) : Statement (.frRead n) := rfl

theorem readReg (r : Byte) : Statement (.readReg r) := rfl

theorem writeReg (r : Byte) (v : Word32) : Statement (.writeReg r v) := rfl

theorem resetWriter : Statement (.resetWriter) := rfl

theorem resetReader : Statement (.resetReader) := rfl

theorem reset : Statement (.reset) := rfl

end Sys2Proof.Laws.EncodedSize
end

