-- ==== Sys2Proof/Tests/Slice0.lean ====
section
/-!
SUPPORT. Tests: ill-formed terms that WellFormed refuses; every constructor decoded from a word written
out from the spec's encoding; small steps with results from spec/95_test_vectors.md or worked by hand
from the rules; and for every statement with hypotheses a state and operands that meet them.
-/
namespace Sys2Proof.Tests
open Sys2Proof Sys2Proof.Machine Sys2Proof.Spec

/-! ### WellFormed refuses -/

theorem test_wf_lit_empty : (Instr.lit []).wellFormed = false := by decide
theorem test_wf_lit_61 : (Instr.lit (List.replicate 61 0)).wellFormed = false := by decide
theorem test_wf_litX1_empty : (Instr.litX1 []).wellFormed = false := by decide
theorem test_wf_litX1_257 : (Instr.litX1 (List.replicate 257 0)).wellFormed = false := by
  decide +kernel
theorem test_wf_litX2_empty : (Instr.litX2 []).wellFormed = false := by decide
theorem test_wf_litX2_65537 : (Instr.litX2 (List.replicate 65537 0)).wellFormed = false := by
  simp only [Instr.wellFormed, literalFits, List.length_replicate]; decide
theorem test_wf_litX3_empty : (Instr.litX3 []).wellFormed = false := by decide
theorem test_wf_litX3_16777217 : (Instr.litX3 (List.replicate 16777217 0)).wellFormed = false := by
  simp only [Instr.wellFormed, literalFits, List.length_replicate]; decide
theorem test_wf_litX4_empty : (Instr.litX4 []).wellFormed = false := by decide
theorem test_wf_copy1_offset : (Instr.copy1 2048 4).wellFormed = false := by decide
theorem test_wf_copy1_short : (Instr.copy1 1 3).wellFormed = false := by decide
theorem test_wf_copy1_long : (Instr.copy1 1 12).wellFormed = false := by decide
theorem test_wf_copy2_offset : (Instr.copy2 65536 4).wellFormed = false := by decide
theorem test_wf_copy2_short : (Instr.copy2 1 0).wellFormed = false := by decide
theorem test_wf_copy2_long : (Instr.copy2 1 65).wellFormed = false := by decide
theorem test_wf_copy4_offset : (Instr.copy4 4294967296 4).wellFormed = false := by decide
theorem test_wf_copy4_short : (Instr.copy4 1 0).wellFormed = false := by decide
theorem test_wf_copy4_long : (Instr.copy4 1 65).wellFormed = false := by decide
theorem test_wf_chunk_len :
    [Instr.chunkCompressed 16777216, .chunkUncompressed 16777216, .chunkReserved 0x02 16777216,
      .chunkSkip 0x80 16777216, .chunkPad 16777216, .chunkIdent 16777216].all
        (fun i => !i.wellFormed) = true := by decide
theorem test_wf_reserved_type_low : (Instr.chunkReserved 0x01 4).wellFormed = false := by decide
theorem test_wf_reserved_type_high : (Instr.chunkReserved 0x80 4).wellFormed = false := by decide
theorem test_wf_skip_type_low : (Instr.chunkSkip 0x7F 4).wellFormed = false := by decide
theorem test_wf_skip_type_high : (Instr.chunkSkip 0xFE 4).wellFormed = false := by decide

/-! ### Every constructor from a word written out (R103 to R106, R113, R114, R117) -/

/-- tag 000001 00: m = 1, then 2 bytes, LIT "ab" by R103 and R111 (log entry 26) -/
theorem test_decode_lit_ab : decodeElem [0x04, 0x61, 0x62] = .ok (.lit [0x61, 0x62], 3) := by decide
/-- tag 000110 00: m = 6, then 7 bytes (P1) -/
theorem test_decode_lit :
    decodeElem [0x18, 0x48, 0x65, 0x6c, 0x6c, 0x6f, 0x2c, 0x20, 0x4a]
      = .ok (.lit [0x48, 0x65, 0x6c, 0x6c, 0x6f, 0x2c, 0x20], 8) := by decide
/-- tag 111100 00: m = 60, length byte 04 + 1 (section 2.3) -/
theorem test_decode_litX1 :
    decodeElem [0xf0, 0x04, 0x61, 0x62, 0x63, 0x64, 0x65]
      = .ok (.litX1 [0x61, 0x62, 0x63, 0x64, 0x65], 7) := by decide
/-- tag 111101 00: m = 61; 012B + 1 = 300 bytes (P2) -/
theorem test_decode_litX2 :
    decodeElem ([0xf4, 0x2b, 0x01] ++ List.replicate 300 0xee)
      = .ok (.litX2 (List.replicate 300 0xee), 303) := by decide +kernel
/-- tag 111110 00: m = 62, a 3-byte length (90_conflicts.md C3) -/
theorem test_decode_litX3 :
    decodeElem [0xf8, 0x01, 0x00, 0x00, 0x61, 0x62] = .ok (.litX3 [0x61, 0x62], 6) := by decide
/-- tag 111111 00: m = 63, a 4-byte length -/
theorem test_decode_litX4 :
    decodeElem [0xfc, 0x01, 0x00, 0x00, 0x00, 0x61, 0x62] = .ok (.litX4 [0x61, 0x62], 7) := by
  decide
/-- tag 001 011 01: offset 1 * 256 + 2C = 300, length 3 + 4 (P2) -/
theorem test_decode_copy1 : decodeElem [0x2d, 0x2c] = .ok (.copy1 300 7, 2) := by decide
/-- tag 010010 10: length 18 + 1, offset 0007 (P1) -/
theorem test_decode_copy2 : decodeElem [0x4a, 0x07, 0x00] = .ok (.copy2 7 19, 3) := by decide
/-- tag 000011 11: length 3 + 1, offset 04030201 -/
theorem test_decode_copy4 :
    decodeElem [0x0f, 0x01, 0x02, 0x03, 0x04] = .ok (.copy4 0x04030201 4, 5) := by decide
theorem test_decode_chunkCompressed :
    decodeChunk [0x00, 0x09, 0x0c, 0x00] = .ok (.chunkCompressed 3081) := by decide
theorem test_decode_chunkUncompressed :
    decodeChunk [0x01, 0x04, 0x00, 0x01] = .ok (.chunkUncompressed 65540) := by decide
theorem test_decode_chunkReserved :
    decodeChunk [0x7f, 0x01, 0x00, 0x00] = .ok (.chunkReserved 0x7f 1) := by decide
theorem test_decode_chunkSkip :
    decodeChunk [0x80, 0x05, 0x00, 0x00] = .ok (.chunkSkip 0x80 5) := by decide
theorem test_decode_chunkPad :
    decodeChunk [0xfe, 0x03, 0x00, 0x00] = .ok (.chunkPad 3) := by decide
theorem test_decode_chunkIdent :
    decodeChunk [0xff, 0x06, 0x00, 0x00, 0x73] = .ok (.chunkIdent 6) := by decide
theorem test_decode_chunk_short : decodeChunk [0x01, 0x06, 0x00] = .error .truncatedStream := by
  decide
/-- The 14 command codes of R117, one for one. -/
theorem test_decode_commands :
    [(0x01 : Byte), 0x02, 0x10, 0x11, 0x20, 0x30, 0x31, 0x32, 0x40, 0x50, 0x51, 0x7D, 0x7E, 0x7F].map
        (fun c => decodeCommand { code := c, n := 7, reg := 4, val := 9, src := [0x61] })
      = [.ok (.varintEncode 7), .ok (.varintDecode [0x61]), .ok (.maxCompressLen 7),
         .ok (.compress [0x61]), .ok (.decompress [0x61]), .ok (.fwWrite [0x61]), .ok .fwFlush,
         .ok .fwClose, .ok (.frRead 7), .ok (.readReg 4), .ok (.writeReg 4 9), .ok .resetWriter,
         .ok .resetReader, .ok .reset] := by decide
theorem test_decode_unknown_commands :
    [(0x00 : Byte), 0x03, 0x0F, 0x12, 0x1F, 0x21, 0x2F, 0x33, 0x3F, 0x41, 0x4F, 0x52, 0x7C, 0x80,
        0xFF].all
      (fun c => decide (decodeCommand { code := c } = .error .unknownCommand)) = true := by decide
theorem test_decode_truncations :
    [[0xf0], [0xfc, 0xff, 0xff, 0xff], [0x01], [0x02, 0x01], [0x03, 0x01, 0x00, 0x00]].all
        (fun b => decide (decodeElem b = .error .tagTruncated)) = true ∧
      [[0x10, 0x61], [0xfc, 0xff, 0xff, 0xff, 0xff, 0x61, 0x62]].all
        (fun b => decide (decodeElem b = .error .literalTruncated)) = true := by decide

/-! ### Table words -/

theorem test_table_copy1 : decodeTableWord 16 0x2c2d = some (.copy1 300 7) := by decide
theorem test_table_litX4 : decodeTableWord 40 0xfc = some (.litX4 [0]) := by decide
theorem test_table_chunk : decodeTableWord 32 0x000006ff = some (.chunkIdent 6) := by decide
theorem test_table_command : decodeTableWord 8 0x7f = some .reset := by decide
/-! ### Small states -/

/-- A list of zero bytes, for lengths at the edges of ranges. -/
def zeros (n : Nat) : List Byte := List.replicate n 0

/-- A DECOMPRESS with declared length `len` and `dst` written. -/
def decState (len : Nat) (dst : List Byte) : State :=
  { State.reset with engine := .decompressing, dec := { src := [], pc := 0, len := len, dst := dst } }

/-- A compressed chunk's decode likewise, its stored checksum kept. -/
def chunkDecState (len : Nat) (dst stored : List Byte) : State :=
  { decState len dst with engine := .decodingChunk 16 stored }

/-- FR_READ 16 in its loop, the identifier seen, the source about to give `b` and then `EOF`. -/
def readState (b : List Byte) : State :=
  { State.reset with
    engine := .reading 16, source := { coming := restEvent b [.eof], rest := .ends }
    r := { Reader.reset with identSeen := true } }

/-- The same, the source failing after `b`. -/
def failState (b : List Byte) : State := 
  { readState b with source := { coming := restEvent b [.ioFail], rest := .ends } }

/-- A writer session holding `b`, the sink answering as `answers` says. -/
def writeState (b : List Byte) (answers : List Config.SinkAnswer) : State :=
  { State.reset with
    w := { Writer.reset with buf := b }, sinkScript := { coming := answers, rest := .accepts } }

/-- A writer session one byte short of a full buffer, the sink about to fail. -/
def fullState : State :=
  { State.reset with
    w := { Writer.reset with buf := zeros 65535 }
    sinkScript := { coming := [.ioFail], rest := .accepts } }

/-- A host command waiting. -/
def hostState (c : HostCommand) : State := { State.reset with commands := [c] }

/-- What an outcome's next state shows. -/
def shown {α : Type} (f : State → α) : StepResult → Option α
  | .next s => some (f s)
  | .fault _ => none
  | .refused _ => none

/-- The response, STATUS and the engine's state after an outcome. -/
def ended (o : StepResult) : Option (List Response × Word32 × Engine) :=
  shown (fun s => (s.responses, statusWord s.status, s.engine)) o

/-- DST and the cursor after an outcome. -/
def dstOf (o : StepResult) : Option (List Byte × Nat) := shown (fun s => (s.dec.dst, s.dec.pc)) o

theorem test_table_word_steps :
    shown id (step (State.reset.withFetchWord 8 0x7f)) = shown id (exec .reset State.reset) := by
  decide +kernel

/-! ### One step of each instruction -/

theorem test_lit : dstOf (exec (.lit [0x61]) (decState 1 [])) = some ([0x61], 2) := by decide
theorem test_lit_overshoot :
    ended (exec (.lit [0x62]) (decState 1 [0x61]))
      = some ([.error .overshoot], 0x00201401, .idle) := by decide
theorem test_litX1 : dstOf (exec (.litX1 [0x62]) (decState 2 [0x61])) = some ([0x61, 0x62], 3) := by
  decide
theorem test_litX2 : dstOf (exec (.litX2 [0x62]) (decState 2 [0x61])) = some ([0x61, 0x62], 4) := by
  decide
theorem test_litX3 : dstOf (exec (.litX3 [0x62]) (decState 2 [0x61])) = some ([0x61, 0x62], 5) := by
  decide
theorem test_litX4 : dstOf (exec (.litX4 [0x62]) (decState 2 [0x61])) = some ([0x61, 0x62], 6) := by
  decide
/-- `COPY1 1, 4` overlaps itself (section 2.3). -/
theorem test_copy1 :
    dstOf (exec (.copy1 1 4) (decState 5 [0x61])) = some ([0x61, 0x61, 0x61, 0x61, 0x61], 2) := by
  decide
theorem test_copy1_offset_zero :
    ended (exec (.copy1 0 4) (decState 5 [0x61]))
      = some ([.error .offsetZero], 0x00201201, .idle) := by decide
/-- Period 3 (R255). -/
theorem test_copy2 :
    dstOf (exec (.copy2 3 7) (decState 10 [0x61, 0x62, 0x63]))
      = some ([0x61, 0x62, 0x63, 0x61, 0x62, 0x63, 0x61, 0x62, 0x63, 0x61], 3) := by decide
theorem test_copy2_beyond_in_chunk :
    ended (exec (.copy2 2 4) (chunkDecState 5 [0x61] [0, 0, 0, 0]))
      = some ([.error .offsetBeyondOutput], 0x00401301, .idle) := by decide
/-- `offset = d` (90_conflicts.md C1). -/
theorem test_copy4 :
    dstOf (exec (.copy4 4 4) (decState 8 [0x61, 0x62, 0x63, 0x64]))
      = some ([0x61, 0x62, 0x63, 0x64, 0x61, 0x62, 0x63, 0x64], 5) := by decide

theorem test_chunkUncompressed :
    shown (fun s => (s.r.pending, s.r.consumed, s.engine))
        (exec (.chunkUncompressed 6) (readState [0x13, 0xd6, 0x08, 0x56, 0x68, 0x69]))
      = some ([0x68, 0x69], 6, .reading 16) := by decide +kernel
theorem test_chunkUncompressed_checksum :
    ended (exec (.chunkUncompressed 6) (readState [0x00, 0x00, 0x00, 0x00, 0x68, 0x69]))
      = some ([.error .checksum], 0x00403002, .idle) := by decide +kernel
/-- The data `0b 00 61 26 01 00` declares 11 bytes; its tag stream starts at byte 1. -/
theorem test_chunkCompressed :
    shown (fun s => (s.dec, s.engine))
        (exec (.chunkCompressed 10)
          (readState [0x80, 0xce, 0x4e, 0xfc, 0x0b, 0x00, 0x61, 0x26, 0x01, 0x00]))
      = some ({ src := [0x0b, 0x00, 0x61, 0x26, 0x01, 0x00], pc := 1, len := 11, dst := [] },
          .decodingChunk 16 [0x80, 0xce, 0x4e, 0xfc]) := by decide +kernel
theorem test_chunkCompressed_end :
    shown (fun s => (s.r.pending, s.engine))
        (step (chunkDecState 11 (List.replicate 11 0x61) [0x80, 0xce, 0x4e, 0xfc]))
      = some (List.replicate 11 0x61, .reading 16) := by decide +kernel
theorem test_chunkReserved :
    ended (exec (.chunkReserved 0x02 0) (readState []))
      = some ([.error .reservedChunkType], 0x00402201, .idle) := by decide
theorem test_chunkSkip :
    shown (fun s => (s.r.pending, s.r.consumed, s.source.coming))
        (exec (.chunkSkip 0x80 5) (readState [0, 0, 0, 0, 0, 0x01]))
      = some ([], 5, [.data 0x01 [], .eof]) := by decide
theorem test_chunkPad_truncated :
    ended (exec (.chunkPad 3) (readState [0, 0]))
      = some ([.error .truncatedStream], 0x00402601, .idle) := by decide
theorem test_chunkPad :
    shown (fun s => (s.source.coming, s.engine)) (exec (.chunkPad 3) (readState [0, 0, 0]))
      = some ([.eof], .reading 16) := by decide
theorem test_chunkIdent :
    shown (fun s => (s.r.identSeen, s.r.pending, s.engine))
        (exec (.chunkIdent 6)
          { readState [0x73, 0x4e, 0x61, 0x50, 0x70, 0x59] with r := Reader.reset })
      = some (true, [], .reading 16) := by decide
theorem test_chunkIdent_bad :
    ended (exec (.chunkIdent 6) (readState [0x73, 0x4e, 0x61, 0x50, 0x70, 0x58]))
      = some ([.error .streamIdentBad], 0x00402101, .idle) := by decide

theorem test_varintEncode :
    ended (exec (.varintEncode 300) State.reset)
      = some ([.ok (.bytes [0xac, 0x02])], 0x00010000, .idle) := by decide
theorem test_varintEncode_max :
    ended (exec (.varintEncode 0xFFFFFFFFFFFFFFFF) State.reset)
      = some ([.ok (.bytes [0xff, 0xff, 0xff, 0xff, 0xff, 0xff, 0xff, 0xff, 0xff, 0x01])],
          0x00010000, .idle) := by decide +kernel
theorem test_varintDecode :
    ended (exec (.varintDecode [0xac, 0x02, 0xff]) State.reset)
      = some ([.ok (.varint 300 2)], 0x00020000, .idle) := by decide
theorem test_varintDecode_overflow :
    ended (exec (.varintDecode [0xff, 0xff, 0xff, 0xff, 0xff, 0xff, 0xff, 0xff, 0xff, 0x02])
        State.reset)
      = some ([.error .varintOverflow], 0x00020201, .idle) := by decide +kernel
/-- 2^32 = 4294967296, the first length above the limit: 32 + 4294967296 + 715827882 (R8), where the block
answers (R432); refused where it follows R182. -/
theorem test_maxCompressLen_oversize :
    ended (exec (.maxCompressLen 4294967296)
        { State.reset with policy := { State.reset.policy with oversize := .answered } })
      = some ([.ok (.bound 5010795210)], 0x00100000, .idle) ∧
    ended (exec (.maxCompressLen 4294967296) State.reset)
      = some ([.error .encodeInputTooLarge], 0x00104203, .idle) := by decide
theorem test_maxCompressLen :
    ended (exec (.maxCompressLen 4294967295) State.reset)
      = some ([.ok (.bound 5010795209)], 0x00100000, .idle) := by decide
/-- The pattern `abcd` five times (section 2.2). -/
theorem test_compress :
    shown (fun s => s.responses)
        (exec (.compress [0x61, 0x62, 0x63, 0x64, 0x61, 0x62, 0x63, 0x64, 0x61, 0x62, 0x63, 0x64,
          0x61, 0x62, 0x63, 0x64, 0x61, 0x62, 0x63, 0x64]) State.reset)
      = some [.ok (.bytes [0x14, 0x0c, 0x61, 0x62, 0x63, 0x64, 0x3e, 0x04, 0x00])] := by
  decide +kernel
/-- 100 bytes of 61: the copy of 99 is split into 64 and 35 (section 2.2). -/
theorem test_compress_split :
    shown (fun s => s.responses) (exec (.compress (List.replicate 100 0x61)) State.reset)
      = some [.ok (.bytes [0x64, 0x00, 0x61, 0xfe, 0x01, 0x00, 0x8a, 0x01, 0x00])] := by
  decide +kernel
theorem test_decompress :
    shown (fun s => (s.dec, s.engine))
        (exec (.decompress [0x0b, 0x00, 0x61, 0x26, 0x01, 0x00]) State.reset)
      = some ({ src := [0x0b, 0x00, 0x61, 0x26, 0x01, 0x00], pc := 1, len := 11, dst := [] },
          .decompressing) := by decide
theorem test_decompress_over_max :
    ended (exec (.decompress [0x80, 0x80, 0x80, 0x80, 0x10]) State.reset)
      = some ([.error .declaredLengthOverMax], 0x00204003, .idle) := by decide
theorem test_fwWrite :
    shown (fun s => (s.w.buf, s.sink, s.responses)) (exec (.fwWrite [0x61]) State.reset)
      = some ([0x61], [], [.ok (.count 1)]) := by decide +kernel
theorem test_fwWrite_closed :
    ended (exec (.fwWrite [0x62]) { State.reset with w := { Writer.reset with phase := .closed } })
      = some ([.error .sessionClosed], 0x00306005, .idle) := by decide
theorem test_fwFlush :
    shown (fun s => (s.sink, wstateWord s.w)) (exec .fwFlush (writeState [0x68, 0x69] []))
      = some ([0xff, 0x06, 0x00, 0x00, 0x73, 0x4e, 0x61, 0x50, 0x70, 0x59, 0x01, 0x06, 0x00, 0x00,
          0x13, 0xd6, 0x08, 0x56, 0x68, 0x69], 0x00020000) := by decide +kernel
/-- The sink answers 0 to its first write (section 2.5). -/
theorem test_fwFlush_write_zero :
    shown (fun s => (s.sink, wstateWord s.w)) (exec .fwFlush (writeState [0x61] [.accept 0]))
      = some ([], 0x52480000) := by decide +kernel
/-- The sink takes 4 bytes, then 3, then fails: 7 of the identifier's 10 bytes are out (R79, R314). -/
theorem test_fwFlush_short_writes :
    shown (fun s => (s.sink, s.w.identSent, s.status.result))
        (exec .fwFlush (writeState [0x61] [.accept 4, .accept 3, .ioFail]))
      = some ([0xff, 0x06, 0x00, 0x00, 0x73, 0x4e, 0x61], false, some .sinkIo) := by decide +kernel
theorem test_fwClose :
    shown (fun s => (s.sink, wstateWord s.w)) (exec .fwClose (writeState [0x61] []))
      = some ([0xff, 0x06, 0x00, 0x00, 0x73, 0x4e, 0x61, 0x50, 0x70, 0x59, 0x01, 0x05, 0x00, 0x00,
          0x78, 0x6e, 0xe4, 0x28, 0x61], 0x00060000) := by decide +kernel
theorem test_fwClose_empty :
    shown (fun s => (s.sink, wstateWord s.w)) (exec .fwClose State.reset)
      = some ([], 0x00040000) := by decide
theorem test_frRead_delivers :
    shown (fun s => (s.responses, s.r.pending))
        (exec (.frRead 1) { State.reset with r := { Reader.reset with pending := [0x68, 0x69] } })
      = some ([.ok (.read [0x68] false)], [0x69]) := by decide
theorem test_frRead_starts :
    shown (fun s => (s.engine, s.responses)) (exec (.frRead 100) State.reset)
      = some (.reading 100, []) := by decide
/-- STATUS of the reset event (section 2.7). -/
theorem test_readReg :
    ended (exec (.readReg 0x08) State.reset) = some ([.ok (.reg 0)], 0x00500000, .idle) := by decide
theorem test_readReg_bad :
    ended (exec (.readReg 0x14) State.reset)
      = some ([.error .badRegister], 0x00506205, .idle) := by decide
theorem test_writeReg :
    shown (fun s => (s.reqIdent, ctrlWord s.reqIdent)) (exec (.writeReg 0x04 0xFFFFFFFE) State.reset)
      = some (false, 0) := by decide
theorem test_writeReg_read_only :
    ended (exec (.writeReg 0x08 0) State.reset)
      = some ([.error .regReadOnly], 0x00516305, .idle) := by decide
theorem test_resetWriter :
    shown (fun s => (s.w, statusWord s.status))
        (exec .resetWriter { State.reset with w := { phase := .failed .sinkIo, identSent := true,
                                                     buf := [] } })
      = some (Writer.reset, 0x007D0000) := by decide
theorem test_resetReader :
    shown (fun s => (s.r, statusWord s.status))
        (exec .resetReader { State.reset with r := { Reader.reset with fail := some .checksum } })
      = some (Reader.reset, 0x007E0000) := by decide
theorem test_reset :
    shown (fun s => (s.cfgMaxDecode, s.reqIdent, statusWord s.status))
        (exec .reset { State.reset with cfgMaxDecode := 5, reqIdent := false })
      = some (0xFFFFFFFF, true, 0x007F0000) := by decide
theorem test_unknown_command :
    ended (step (hostState { code := 0x03 }))
      = some ([.error .unknownCommand], 0x00036105, .idle) := by decide

/-! ### Units with known answers -/

/-- A body with Copy2 where Copy1 fits, and one with a wide literal, conform to R181: `aaaaaaaa`. -/
theorem test_conforms_wide_forms :
    conforms (List.replicate 8 0x61) [0x00, 0x61, 0x1a, 0x01, 0x00] = true ∧
      conforms (List.replicate 8 0x61) ([0xf0, 0x07] ++ List.replicate 8 0x61) = true := by
  decide +kernel
/-- Bodies that break R181 do not: a copy before the output, a wrong byte, R183's one-byte input. -/
theorem test_conforms_refuses :
    conforms (List.replicate 8 0x61) [0x1e, 0x01, 0x00] = false ∧
      conforms [0x61, 0x62] [0x04, 0x61, 0x63] = false ∧ conforms [0x61] [0xf0, 0x00, 0x61] = false := by
  decide +kernel
/-- Section 2.4: the nine digits. -/
theorem test_chk : chkBytes [0x31, 0x32, 0x33, 0x34, 0x35, 0x36, 0x37, 0x38, 0x39]
    = [0xe5, 0xb0, 0x8a, 0xc7] := by decide +kernel
/-- P1 as a function. -/
theorem test_decompressed :
    decompressed 0xFFFFFFFF
        [0x1b, 0x18, 0x48, 0x65, 0x6c, 0x6c, 0x6f, 0x2c, 0x20, 0x4a, 0x07, 0x00, 0x00, 0x21]
      = .ok [0x48, 0x65, 0x6c, 0x6c, 0x6f, 0x2c, 0x20, 0x48, 0x65, 0x6c, 0x6c, 0x6f, 0x2c, 0x20,
          0x48, 0x65, 0x6c, 0x6c, 0x6f, 0x2c, 0x20, 0x48, 0x65, 0x6c, 0x6c, 0x6f, 0x21] := by
  decide +kernel
/-- RSTATE of P4, row 3: a checksum failure after the identifier. -/
theorem test_rstate :
    rstateWord { Reader.reset with identSeen := true, fail := some .checksum } = 0x30260000 := by
  decide

/-! ### The hypotheses of the statements are met -/

theorem witness_DecodeInvertsEncodeOnElements :
    [Instr.lit (zeros 60), .litX1 (zeros 256), .litX2 (zeros 257), .litX3 (zeros 1),
      .litX4 (zeros 1), .copy1 2047 11, .copy2 65535 64, .copy4 4294967295 1].all
        (fun i => i.isElement && i.wellFormed) = true := by decide +kernel
theorem witness_DecodeInvertsEncode :
    [Instr.copy1 0 4, .chunkCompressed 16777215, .chunkReserved 0x7F 0, .chunkSkip 0xFD 1,
      .writeReg 4 1].all (fun i => i.wellFormed) = true := by decide
theorem witness_DecodedElementReencodes :
    decodeElem [0xfd, 0xff, 0x00] = .ok (.copy1 2047 11, 2) := by decide
theorem witness_EveryTagByteDecodes :
    decodeElem [0x00, 0x61] = .ok (.lit [0x61], 2) ∧ decodeElem [0x01, 0x01] = .ok (.copy1 1 4, 2) ∧
      decodeElem [0x02, 0x01, 0x00] = .ok (.copy2 1 1, 3) ∧
      decodeElem [0xff, 0xff, 0xff, 0xff, 0xff] = .ok (.copy4 4294967295 64, 5) ∧
      decodeElem [0x00] = .error .literalTruncated ∧ decodeElem [0x03] = .error .tagTruncated := by
  decide
theorem witness_ChunkHeaderDecodes :
    (0x02 ≤ (0x02 : Byte).toNat ∧ (0x7F : Byte).toNat ≤ 0x7F) ∧
      (0x80 ≤ (0x80 : Byte).toNat ∧ (0xFD : Byte).toNat ≤ 0xFD) := by decide
theorem witness_VarintLengthBreakpoints :
    (0x7F : Word64).toNat < 2 ^ 7 ∧ 2 ^ 7 ≤ (0x80 : Word64).toNat ∧
      2 ^ 63 ≤ (0x8000000000000000 : Word64).toNat ∧ (4294967295 : Word64).toNat ≤ 4294967295 ∧
      (0x80 : Word64).toNat < 2 ^ (7 * 2) := by decide
/-- Ten groups, the last one 1; one group; nine continuing bytes; a tenth byte of 2. -/
theorem witness_VarintDecodeReadsGroups :
    (let src : List Byte := List.replicate 9 0xff ++ [0x01]
     9 < 10 ∧ 9 < src.length ∧ (∀ j < 9, continues (src.getD j 0)) ∧
       ¬ continues (src.getD 9 0) ∧ (src.getD 9 0).toNat ≤ 1) ∧
    (0 < ([0x7f] : List Byte).length ∧ ¬ continues (([0x7f] : List Byte).getD 0 0)) ∧
    (let src : List Byte := List.replicate 9 0x80
     src.length < 10 ∧ ∀ b ∈ src, continues b) ∧
    (let src : List Byte := List.replicate 9 0xff ++ [0x02]
     10 ≤ src.length ∧ (∀ j < 9, continues (src.getD j 0)) ∧ 2 ≤ (src.getD 9 0).toNat) := by
  unfold continues; decide

theorem decoding_decState (len : Nat) (dst : List Byte) : decoding (decState len dst) := .inl rfl
theorem decoding_chunkDecState (len : Nat) (dst stored : List Byte) :
    decoding (chunkDecState len dst stored) := .inr ⟨16, stored, rfl⟩

/-- The literal fills the output exactly. -/
theorem witness_LiteralAppendsItsBytes :
    decoding (decState 2 [0x61]) ∧ [(0x61 : Byte)].length + [(0x62 : Byte)].length ≤ 2 :=
  ⟨decoding_decState _ _, by decide⟩
/-- `offset = d`, and the copy fills the output exactly. -/
theorem witness_CopyRepeatsEarlierOutput :
    decoding (chunkDecState 5 [0x61] []) ∧ 1 ≤ 1 ∧ 1 ≤ [(0x61 : Byte)].length ∧
      [(0x61 : Byte)].length + 4 ≤ 5 := ⟨decoding_chunkDecState _ _ _, by decide⟩
theorem witness_NonOverlappingCopyIsBlockMove :
    decoding (decState 4 [0x61, 0x62]) ∧ 2 ≤ [(0x61 : Byte), 0x62].length ∧ 2 ≤ 2 ∧
      [(0x61 : Byte), 0x62].length + 2 ≤ 4 := ⟨decoding_decState _ _, by decide⟩
/-- Offset 0; offset `d + 1`; one byte too many, for a copy and for a literal; elements cut short. -/
theorem witness_ElementChecksRunInOrder :
    decoding (decState 4 [0x61]) ∧ [(0x61 : Byte)].length < 2 ∧
      4 < [(0x61 : Byte)].length + 4 ∧ 4 < [(0x61 : Byte)].length + (zeros 4).length ∧
      (let s : State := { chunkDecState 4 [] [] with dec := { src := [0x00], pc := 0, len := 4, dst := [] } }
       decoding s ∧ s.dec.pc < s.dec.src.length ∧
         decodeElem (s.dec.src.drop s.dec.pc) = .error .literalTruncated) ∧
      decodeElem [0x01] = .error .tagTruncated :=
  ⟨decoding_decState _ _, by decide, by decide, by decide, ⟨.inr ⟨16, [], rfl⟩, by decide⟩, by decide⟩
/-- Lengths 2^32 - 1, 2^32 and, with the cap 10, 11; a cut header. -/
theorem witness_DecompressChecksThenStarts :
    varintDecode [0xff, 0xff, 0xff, 0xff, 0x0f] = .ok (4294967295, 5) ∧
      (4294967295 : Word64).toNat ≤ State.reset.cfgMaxDecode.toNat ∧
      varintDecode [0x80] = .error .varintTruncated ∧
      varintDecode [0x80, 0x80, 0x80, 0x80, 0x10] = .ok (4294967296, 5) ∧
      4294967295 < (4294967296 : Word64).toNat ∧ varintDecode [0x0b] = .ok (11, 1) ∧
      ({ State.reset with cfgMaxDecode := 10 } : State).cfgMaxDecode.toNat < (11 : Word64).toNat := by
  decide +kernel
theorem witness_DecompressEndsWithItsBytes :
    (decState 1 [0x61]).engine = .decompressing ∧
      (decState 1 [0x61]).dec.src.length ≤ (decState 1 [0x61]).dec.pc ∧
      (decState 1 [0x61]).dec.dst.length = 1 ∧ (decState 2 [0x61]).dec.dst.length ≠ 2 := by decide
theorem witness_DecompressRunsToItsResult :
    (hostState { code := 0x20, src := [0x00] }).engine = .idle ∧
      decompressed 0xFFFFFFFF [0x00] = .ok [] ∧
      decompressed 0xFFFFFFFF [] = .error .varintTruncated := by decide
theorem witness_DecompressReplaysElements :
    [Instr.lit [0x61], .copy2 1 10].all (fun i => i.isElement && i.wellFormed) = true ∧
      replay [.lit [0x61], .copy2 1 10] [] = some (List.replicate 11 0x61) ∧
      (List.replicate 11 (0x61 : Byte)).length ≤ (11 : Word32).toNat := by decide
theorem witness_CompressConforms : ([0x61] : List Byte).length ≤ 4294967295 := by decide
theorem witness_CompressCompletes :
    ([] : List Byte).length ≤ 4294967295 ∧ 4294967295 < (zeros 4294967296).length := by
  rw [zeros, List.length_replicate]; decide
theorem witness_MaxCompressLenReportsBound :
    (4294967295 : Word64).toNat ≤ 4294967295 ∧ 4294967295 < (4294967296 : Word64).toNat ∧
      State.reset.policy.oversize = .refused ∧
      (∃ s : State, s.policy.oversize = .answered) ∧
      32 + (4294967296 : Word64).toNat + (4294967296 : Word64).toNat / 6 < 2 ^ 64 :=
  ⟨by decide, by decide, rfl,
   ⟨{ State.reset with policy := { State.reset.policy with oversize := .answered } }, rfl⟩, by decide⟩
theorem witness_LongCopySplitsIntoPieces : 4 ≤ 68 ∧ 1 ≤ 1 ∧ 1 ≤ ([0x61] : List Byte).length := by
  decide
theorem witness_OneByteChangeChangesChecksum : (0x68 : Byte) ≠ 0x69 := by decide

theorem witness_WriteBuffersShortInput :
    State.reset.w.phase = .opened ∧
      State.reset.w.buf.length + (zeros 65535).length < 65536 := by
  rw [zeros, List.length_replicate]; decide
theorem witness_WriteEmitsFullBuffer :
    (writeState [0x61] [.accept 3, .ioFail]).w.phase = .opened ∧ zeros 65535 ≠ [] ∧
      (writeState [0x61] [.accept 3, .ioFail]).w.buf.length + (zeros 65535).length = 65536 := by
  refine ⟨by decide, fun h => ?_, by rw [zeros, List.length_replicate]; decide⟩
  have := congrArg List.length h
  rw [zeros, List.length_replicate] at this; cases this
/-- The byte that fills the buffer emits, and the identifier's write fails. -/
theorem fullState_write_fails :
    ∃ t, exec (.fwWrite [0x61]) fullState = .next t ∧ t.w.phase ≠ .opened := by
  have full : (fullState.w.buf ++ [0x61]).length = Config.chunkMax := by
    show (zeros 65535 ++ [0x61]).length = 65536
    rw [List.length_append, zeros, List.length_replicate]; rfl
  have write : ∀ s : State, s.sinkScript = fullState.sinkScript →
      sinkWriteAll identChunk s = .failed .sinkIo (s.setSinkScript ⟨[], .accepts⟩) := by
    intro s hq
    simp [sinkWriteAll, identChunk, chunkHeader, leBytes, identPayload, sinkWriteLoop,
      SinkScript.answer, hq, fullState, clipAnswer]
  have fails : ∀ s : State, s.w.identSent = false → s.sinkScript = fullState.sinkScript →
      ∃ s', emitChunk s = .failed .sinkIo s' := by
    intro s hi hq
    have hw := write (s.setW { s.w with buf := [] }) hq
    exact ⟨_, by rw [emitChunk, sendIdent, if_neg (by simp [hi]), hw]⟩
  obtain ⟨s', h⟩ :=
    fails (fullState.setW { fullState.w with buf := fullState.w.buf ++ [0x61] }) rfl rfl
  have written : writeBytes [0x61] fullState = .failed .sinkIo s' := by
    simp only [writeBytes, State.setW_w, full, h, if_true]
  refine ⟨_, rfl, ?_⟩
  simp only [written]
  simp [endWriter, raise, writerAfterRaise, isWriterCmd, cmdFwWrite, causeKind]
/-- A first piece that fits, and one that fills the buffer and meets a sink that fails. -/
theorem witness_WriteInPiecesIsTheSame :
    (∃ t, State.reset.w.phase = .opened ∧ exec (.fwWrite [0x61]) State.reset = .next t ∧
      t.w.phase = .opened) ∧
      ∃ s t, s.w.phase = .opened ∧ exec (.fwWrite [0x61]) s = .next t ∧ t.w.phase ≠ .opened :=
  ⟨⟨_, rfl, rfl, by decide +kernel⟩, fullState, fullState_write_fails.choose, rfl,
    fullState_write_fails.choose_spec⟩
theorem witness_FlushAndCloseEmitTheBuffer :
    (writeState [0x61] [.accept 4, .accept 0]).w.phase = .opened ∧
      (writeState [0x61] [.accept 4, .accept 0]).w.buf ≠ [] ∧ (writeState [] []).w.buf = [] := by decide
theorem witness_ClosedSessionRefuses :
    ({ State.reset with w := { Writer.reset with phase := .closed } } : State).w.phase = .closed := by
  decide
theorem witness_FailedWriterRepeatsItsError :
    (let w : Writer := { phase := .failed .sinkIo, identSent := true, buf := [] }
     w.phase = .failed .sinkIo ∧ writerOk w = true) := by decide
theorem witness_WriterCommandCompletesOrFailsItsSession :
    (writeState [0x61] [.accept 1, .accept 3]).w.phase = .opened ∧
      neverRefuses (writeState [0x61] [.accept 1, .accept 3]).sinkScript :=
  ⟨rfl, by simp [writeState], by intro n k h; cases h⟩

/-- Exactly enough bytes; one too few before `EOF`; one too few before a failure. -/
theorem witness_SourceReadExactCollects :
    (takeBytes 4 (readState (zeros 4)).source).isSome = true ∧
      takeBytes 3 (readState (zeros 3)).source = some (zeros 3, ⟨[.eof], .ends⟩) ∧
      (Source.mk [.eof] .ends).next = (.eof, ⟨[], .ends⟩) ∧
      takeBytes 3 (failState (zeros 3)).source = some (zeros 3, ⟨[.ioFail], .ends⟩) ∧
      (Source.mk [.ioFail] .ends).next = (.ioFail, ⟨[], .ends⟩) ∧ 3 < 4 := by decide
theorem witness_ReadAnswersOrStartsItsLoop :
    (∃ s : State, s.r.fail = some .checksum) ∧
      (State.reset.r.fail = none ∧ (1 : Word64) ≠ 0 ∧ State.reset.r.pending = []) ∧
      (∃ s : State, s.r.fail = none ∧ s.r.pending ≠ []) ∧
      ∃ s : State, s.engine = .reading 16 ∧ s.r.pending ≠ [] :=
  ⟨⟨{ State.reset with r := { Reader.reset with fail := some .checksum } }, rfl⟩, by decide,
   ⟨{ State.reset with r := { Reader.reset with pending := [0x61] } }, rfl, by decide⟩,
   ⟨{ readState [] with r := { Reader.reset with pending := [0x61] } }, rfl, by decide⟩⟩
/-- No byte, and three bytes, before the end and before a failure. -/
theorem witness_SourceEndIsCleanOnlyBeforeHeader :
    (readState []).engine = .reading 16 ∧ (readState []).r.pending = [] ∧
      takeBytes 0 (readState []).source = some ([], ⟨[.eof], .ends⟩) ∧
      takeBytes 3 (readState (zeros 3)).source = some (zeros 3, ⟨[.eof], .ends⟩) ∧
      takeBytes 3 (failState (zeros 3)).source = some (zeros 3, ⟨[.ioFail], .ends⟩) ∧
      (Source.mk [.eof] .ends).next = (.eof, ⟨[], .ends⟩) ∧
      (Source.mk [.ioFail] .ends).next = (.ioFail, ⟨[], .ends⟩) := by decide
/-- No identifier yet; types 02 and 7F; length 3; lengths 65541 and 76495; identifier lengths 5, 7. -/
theorem witness_HeaderChecksRunInOrder :
    (let s : State := { readState [] with r := Reader.reset }
     s.engine = .reading 16 ∧ s.reqIdent = true ∧ s.r.identSeen = false ∧ (0x01 : Byte) ≠ 0xFF) ∧
      anyChunkAllowed (readState []) ∧ (0x02 : Byte).toNat ≤ 0x7F ∧ (0x7F : Byte).toNat ≤ 0x7F ∧
      3 < 4 ∧ 65540 < 65541 ∧ 76494 < 76495 ∧ 5 ≠ 6 ∧ 7 ≠ 6 := by
  unfold anyChunkAllowed; decide
theorem anyChunkAllowed_readState (b : List Byte) : anyChunkAllowed (readState b) := .inr rfl
/-- Each clause of a passing header, at its edges, with the payload cut; a session's first identifier
chunk among them. -/
theorem witness_CutPayloadIsTruncatedStream :
    (headerPasses 0x00 4 ∧ headerPasses 0x00 76494 ∧ headerPasses 0x01 4 ∧
      headerPasses 0x01 65540 ∧ headerPasses 0x80 1 ∧ headerPasses 0xFE 16777215 ∧
      headerPasses 0xFF 6) ∧
      anyChunkAllowed (readState (zeros 3)) ∧
      (let s : State := { readState (zeros 3) with r := Reader.reset }
       s.engine = .reading 16 ∧ s.reqIdent = true ∧ s.r.identSeen = false ∧
         takeBytes 3 s.source = some (zeros 3, ⟨[.eof], .ends⟩)) ∧
      takeBytes 3 (failState (zeros 3)).source = some (zeros 3, ⟨[.ioFail], .ends⟩) ∧ 3 < 4 := by
  refine ⟨⟨?_, ?_, ?_, ?_, ?_, ?_, ?_⟩, anyChunkAllowed_readState _, by decide⟩ <;>
    (unfold headerPasses; decide)
/-- No data; two bytes with their checksum; a wrong checksum. -/
theorem witness_UncompressedChunkYieldsItsData :
    (readState [0xd8, 0xea, 0x82, 0xa2]).engine = .reading 16 ∧
      takeBytes 4 (readState [0xd8, 0xea, 0x82, 0xa2]).source
        = some ([0xd8, 0xea, 0x82, 0xa2], ⟨[.eof], .ends⟩) ∧
      [(0xd8 : Byte), 0xea, 0x82, 0xa2] = leBytes 4 (chk []).toNat ∧
      [(0x13 : Byte), 0xd6, 0x08, 0x56] = leBytes 4 (chk [0x68, 0x69]).toNat ∧
      [(0x00 : Byte), 0xd6, 0x08, 0x56] ≠ leBytes 4 (chk [0x68, 0x69]).toNat := by decide +kernel
/-- Declared lengths 65536 and 65537; a cut header. -/
theorem witness_CompressedChunkStartsItsDecode :
    varintDecode [0x80, 0x80, 0x04] = .ok (65536, 3) ∧ (65536 : Word64).toNat ≤ 65536 ∧
      varintDecode [0x81, 0x80, 0x04] = .ok (65537, 3) ∧ 65536 < (65537 : Word64).toNat ∧
      varintDecode [] = .error .varintTruncated ∧
      takeBytes 7 (readState [0, 0, 0, 0, 0x81, 0x80, 0x04]).source
        = some ([0, 0, 0, 0, 0x81, 0x80, 0x04], ⟨[.eof], .ends⟩) := by decide +kernel
theorem witness_CompressedChunkEndsWithItsChecksum :
    (let s := chunkDecState 2 [0x68, 0x69] [0x13, 0xd6, 0x08, 0x56]
     s.dec.src.length ≤ s.dec.pc ∧ s.dec.dst.length = s.dec.len ∧
       [(0x13 : Byte), 0xd6, 0x08, 0x56] = leBytes 4 (chk s.dec.dst).toNat) ∧
      (chunkDecState 3 [0x68, 0x69] []).dec.dst.length ≠ 3 ∧
      [(0x00 : Byte), 0xd6, 0x08, 0x56] ≠ leBytes 4 (chk [0x68, 0x69]).toNat := by decide +kernel
theorem witness_SkippableChunksAreDiscarded :
    anyChunkAllowed (readState [0x01]) ∧ 0x80 ≤ (0x80 : Byte).toNat ∧ (0xFD : Byte).toNat ≤ 0xFD ∧
      takeBytes 1 (readState [0x01]).source = some ([0x01], ⟨[.eof], .ends⟩) :=
  ⟨anyChunkAllowed_readState _, by decide⟩
theorem witness_IdentChunkIsChecked :
    takeBytes 6 (readState [0x73, 0x4e, 0x61, 0x50, 0x70, 0x59]).source
        = some ([0x73, 0x4e, 0x61, 0x50, 0x70, 0x59], ⟨[.eof], .ends⟩) ∧
      takeBytes 6 (readState [0x73, 0x4e, 0x61, 0x50, 0x70, 0x58]).source
        = some ([0x73, 0x4e, 0x61, 0x50, 0x70, 0x58], ⟨[.eof], .ends⟩) := by decide
theorem witness_ReservedChunkFailsTheReader :
    (readState []).engine = .reading 16 ∧ anyChunkAllowed (readState []) ∧
      0x02 ≤ (0x7F : Byte).toNat ∧ (0x7F : Byte).toNat ≤ 0x7F :=
  ⟨rfl, anyChunkAllowed_readState _, by decide⟩
theorem witness_WrittenChunkReadsBack :
    (let s := readState [0x01, 0x05, 0x00, 0x00, 0x78, 0x6e, 0xe4, 0x28, 0x61]
     s.engine = .reading 16 ∧ s.r.pending = [] ∧
       takeBytes (dataChunk .ref [0x61] (compressed .ref [0x61] EncoderRegs.reset).1).length s.source
         = some (dataChunk .ref [0x61] (compressed .ref [0x61] EncoderRegs.reset).1,
             ⟨[.eof], .ends⟩)) ∧
      anyChunkAllowed (readState [0x01, 0x05, 0x00, 0x00, 0x78, 0x6e, 0xe4, 0x28, 0x61]) ∧
      ([0x61] : List Byte) ≠ [] ∧ ([0x61] : List Byte).length ≤ 65536 :=
  ⟨by decide +kernel, anyChunkAllowed_readState _, by decide, by decide⟩

theorem witness_ReadRegGivesEveryField :
    (writeState (zeros 65536) []).w.buf.length ≤ 65536 ∧ State.reset.r.pending.length ≤ 65536 := by
  simp only [writeState, zeros, List.length_replicate]; decide
theorem witness_WriteRegStoresConfiguration :
    (0x14 : Byte) ∉ [(0x00 : Byte), 0x04, 0x08, 0x0C, 0x10] ∧
      (0x01 : Byte) ∉ [(0x00 : Byte), 0x04, 0x08, 0x0C, 0x10] := by decide
/-- The ends of each range of unassigned codes, and a code that is assigned. -/
theorem witness_UnknownCommandIsRefused :
    (∀ c ∈ [(0x00 : Byte), 0x03, 0x0F, 0x12, 0x1F, 0x21, 0x2F, 0x33, 0x3F, 0x41, 0x4F, 0x52, 0x7C,
        0x80, 0xFF], unassignedCode c) ∧ ¬ unassignedCode 0x7D ∧
      (hostState { code := 0x03 }).engine = .idle := by unfold unassignedCode; decide
theorem witness_StepRunsTheDecodedInstruction :
    (decodeCommand { code := 0x7F } = .ok .reset ∧ (hostState { code := 0x7F }).engine = .idle) ∧
      (let s : State := { decState 1 [] with dec := { src := [0x00, 0x61], pc := 0, len := 1, dst := [] } }
       s.dec.pc < s.dec.src.length ∧
         decodeElem (s.dec.src.drop s.dec.pc) = .ok (.lit [0x61], 2)) ∧
      (∃ t, sourceReadExact 4 (readState [0x80, 0x00, 0x00, 0x00])
          = .full [0x80, 0x00, 0x00, 0x00] t) ∧
      decodeChunk [0x80, 0x00, 0x00, 0x00] = .ok (.chunkSkip 0x80 0) :=
  ⟨by decide, by decide, ⟨_, rfl⟩, by decide⟩
theorem witness_CursorAdvancesByElementLength :
    ∃ s t : State, decoding s ∧ s.dec.pc < s.dec.src.length ∧
      decodeElem (s.dec.src.drop s.dec.pc) = .ok (.lit [0x61], 2) ∧ step s = .next t ∧ decoding t :=
  ⟨{ decState 1 [] with dec := { src := [0x00, 0x61], pc := 0, len := 1, dst := [] } }, _, .inl rfl,
    by decide, by decide, rfl, .inl rfl⟩
/-- A step that raises an error, from a state that meets the invariants: its session fails. -/
theorem witness_EveryStepKeepsTheInvariant :
    (readState [0x02, 0, 0, 0]).ok = true ∧ htOk (readState [0x02, 0, 0, 0]).enc.ht = true ∧
      ∃ t, step (readState [0x02, 0, 0, 0]) = .next t ∧
        t.responses = (readState [0x02, 0, 0, 0]).responses ++ [.error .reservedChunkType] :=
  ⟨by decide, by decide, _, rfl, by decide⟩
/-- A flag, a failure and the configuration that RESET clears. -/
theorem witness_FlagsAndFailuresClearOnlyByReset :
    ∃ s t : State, s.ok = true ∧ step s = .next t ∧ s.w.identSent = true ∧ t.w.identSent = false ∧
      s.r.identSeen = true ∧ t.r.identSeen = false ∧ s.w.phase = .failed .sinkIo ∧
      t.w.phase ≠ .failed .sinkIo ∧ s.r.fail = some .checksum ∧ t.r.fail ≠ some .checksum ∧
      ¬ sameConfig s t :=
  ⟨{ hostState { code := 0x7F } with
      cfgMaxDecode := 5, w := { phase := .failed .sinkIo, identSent := true, buf := [] }
      r := { Reader.reset with identSeen := true, fail := some .checksum } }, _, by decide, rfl,
    by decide, by decide, by decide, by decide, by decide, by decide, by decide, by decide,
    fun h => absurd h.1 (by decide)⟩
/-- A command that changes the sink and the writer session; a step that reads the source and changes the
reader session. -/
theorem witness_ChannelsAndSessionsBelongToTheirCommands :
    (∃ s t : State, s.ok = true ∧ step s = .next t ∧ t.sink ≠ s.sink ∧ t.w ≠ s.w) ∧
      ∃ s t : State, s.ok = true ∧ step s = .next t ∧ t.source ≠ s.source ∧ t.r ≠ s.r :=
  ⟨⟨{ writeState [0x61] [] with commands := [{ code := 0x31 }] }, _, by decide, rfl,
      by decide +kernel, by decide +kernel⟩,
   ⟨readState [0x80, 0, 0, 0], _, by decide, rfl, by decide, by decide⟩⟩

end Sys2Proof.Tests
end

namespace Sys2Proof.Machine
open Sys2Proof.Spec

/-! ### `SourceReadExact` (R80), byte by byte

A read may take a piece of a run, and `takeBytes` takes one byte at a time. `sourceReadLoop_nextByte` makes
the two meet: a round of the loop that takes a piece does what the loop does after the piece's first byte.
-/

@[simp] theorem took_zero (s : State) : took 0 s.source s = s := rfl

@[simp] theorem took_source (n : Nat) (q : Source) (s : State) : (took n q s).source = q := rfl

@[simp] theorem took_took (m n : Nat) (q q' : Source) (s : State) :
    took n q' (took m q s) = took (m + n) q' s := by
  simp [took, Nat.add_assoc]

theorem next_of_nextByte_eq_some {q q' : Source} {b : Byte} (h : nextByte q = some (b, q')) :
    ∃ bs q₁, q.next = (.data b bs, q₁) ∧ q' = q₁.giveFirst bs := by
  unfold nextByte at h
  split at h
  · next c bs q₁ hn => cases h; exact ⟨bs, q₁, hn, rfl⟩
  · cases h
  · cases h

theorem nextByte_eq_none_iff {q : Source} :
    nextByte q = none ↔ ∃ q', q.next = (.eof, q') ∨ q.next = (.ioFail, q') := by
  unfold nextByte
  split <;> simp_all

@[simp] theorem takeBytes_zero (q : Source) : takeBytes 0 q = some ([], q) := rfl

theorem takeBytes_succ_of_nextByte {q q' : Source} {b : Byte} (h : nextByte q = some (b, q'))
    (n : Nat) : takeBytes (n + 1) q = (takeBytes n q').map fun y => (b :: y.1, y.2) := by
  simp [takeBytes, h]

theorem takeBytes_succ_eq_some {n : Nat} {q q' : Source} {bs : List Byte}
    (h : takeBytes (n + 1) q = some (bs, q')) :
    ∃ b q₁ cs, nextByte q = some (b, q₁) ∧ takeBytes n q₁ = some (cs, q') ∧ bs = b :: cs := by
  obtain ⟨⟨b, q₁⟩, hb, h⟩ := Option.bind_eq_some_iff.mp h
  obtain ⟨⟨cs, q₂⟩, hcs, h⟩ := Option.map_eq_some_iff.mp h
  cases h
  exact ⟨b, q₁, cs, hb, hcs, rfl⟩

/-- A source gives `k` bytes, or `EOF` or a failure comes before the `k`-th one. -/
theorem takeBytes_or_stops (k : Nat) (q : Source) :
    (∃ b q', takeBytes k q = some (b, q')) ∨
      ∃ n b q₁ q', n < k ∧ takeBytes n q = some (b, q₁) ∧
        (q₁.next = (.eof, q') ∨ q₁.next = (.ioFail, q')) := by
  induction k generalizing q with
  | zero => exact .inl ⟨[], q, rfl⟩
  | succ k ih =>
    cases hb : nextByte q with
    | none =>
      obtain ⟨q', hq'⟩ := nextByte_eq_none_iff.mp hb
      exact .inr ⟨0, [], q, q', k.succ_pos, rfl, hq'⟩
    | some x =>
      obtain ⟨b, q₁⟩ := x
      obtain ⟨bs, q', h⟩ | ⟨n, bs, q₂, q', hn, h, hstop⟩ := ih q₁
      · exact .inl ⟨b :: bs, q', by rw [takeBytes_succ_of_nextByte hb, h]; rfl⟩
      · exact .inr ⟨n + 1, b :: bs, q₂, q', Nat.succ_lt_succ hn,
          by rw [takeBytes_succ_of_nextByte hb, h]; rfl, hstop⟩

theorem sourceRead_of_eof {s : State} {q : Source} (h : s.source.next = (.eof, q)) (k : Nat) :
    sourceRead k s = .eof (took 0 q s) := by
  rw [sourceRead, h]; rfl

theorem sourceRead_of_ioFail {s : State} {q : Source} (h : s.source.next = (.ioFail, q)) (k : Nat) :
    sourceRead k s = .ioFail (took 0 q s) := by
  rw [sourceRead, h]; rfl

theorem sourceRead_of_data {s : State} {q : Source} {b : Byte} {bs : List Byte}
    (h : s.source.next = (.data b bs, q)) (k : Nat) :
    sourceRead k s = .bytes ((b :: bs).take k)
      (took ((b :: bs).take k).length (q.giveFirst ((b :: bs).drop k)) s) := by
  rw [sourceRead, h]; rfl

@[simp] theorem sourceReadLoop_done (fuel : Nat) (got : List Byte) (s : State) :
    sourceReadLoop fuel 0 got s = .full got s := by
  cases fuel <;> simp [sourceReadLoop]

section
variable {s : State} {q : Source} (fuel k : Nat) (got : List Byte)

theorem sourceReadLoop_of_eof (h : s.source.next = (.eof, q)) :
    sourceReadLoop (fuel + 1) (k + 1) got s = .short got (took 0 q s) := by
  simp [sourceReadLoop, sourceRead_of_eof h]

theorem sourceReadLoop_of_ioFail (h : s.source.next = (.ioFail, q)) :
    sourceReadLoop (fuel + 1) (k + 1) got s = .ioFail (took 0 q s) := by
  simp [sourceReadLoop, sourceRead_of_ioFail h]

/-- A round that finds a run takes as much of it as is still to come. -/
theorem sourceReadLoop_of_data {b : Byte} {bs : List Byte} (h : s.source.next = (.data b bs, q)) :
    sourceReadLoop (fuel + 1) (k + 1) got s =
      sourceReadLoop fuel (k - (bs.take k).length) (got ++ b :: bs.take k)
        (took ((bs.take k).length + 1) (q.giveFirst (bs.drop k)) s) := by
  simp [sourceReadLoop, sourceRead_of_data h]

end

/-- As many rounds as bytes to come suffice: more make no difference. -/
theorem sourceReadLoop_fuel {fuel fuel' k : Nat} (hk : k ≤ fuel) (hk' : k ≤ fuel') (got : List Byte)
    (s : State) : sourceReadLoop fuel k got s = sourceReadLoop fuel' k got s := by
  induction fuel generalizing fuel' k got s with
  | zero =>
    obtain rfl : k = 0 := Nat.le_zero.mp hk
    simp
  | succ fuel ih =>
    match k, fuel' with
    | 0, _ => simp
    | k + 1, fuel' + 1 =>
      obtain ⟨e, q, h⟩ : ∃ e q, s.source.next = (e, q) := ⟨_, _, rfl⟩
      cases e with
      | eof => simp only [sourceReadLoop_of_eof _ _ _ h]
      | ioFail => simp only [sourceReadLoop_of_ioFail _ _ _ h]
      | data b bs =>
        simp only [sourceReadLoop_of_data _ _ _ h]
        exact ih (by omega) (by omega) _ _

/-- The loop goes on after the next byte as if a read had given that byte alone. -/
theorem sourceReadLoop_nextByte {s : State} {q : Source} {b : Byte}
    (h : nextByte s.source = some (b, q)) (k : Nat) (got : List Byte) :
    sourceReadLoop (k + 1) (k + 1) got s = sourceReadLoop k k (got ++ [b]) (took 1 q s) := by
  obtain ⟨bs, q₁, hn, rfl⟩ := next_of_nextByte_eq_some h
  rw [sourceReadLoop_of_data _ _ _ hn]
  match k, bs with
  | 0, bs => simp
  | k + 1, [] => simp
  | k + 1, c :: cs =>
    have hrest : (took 1 (q₁.giveFirst (c :: cs)) s).source.next = (.data c cs, q₁) := by simp
    rw [sourceReadLoop_of_data _ _ _ hrest, took_took]
    simp only [List.take_succ_cons, List.drop_succ_cons, List.length_cons, Nat.add_sub_add_right,
      List.append_assoc, List.singleton_append, Nat.add_comm 1]
    exact sourceReadLoop_fuel (by omega) (Nat.sub_le ..) _ _

/-- The loop goes on after the source's next `n` bytes as if they had come one by one. -/
theorem sourceReadLoop_takeBytes {n : Nat} {s : State} {q : Source} {b : List Byte}
    (h : takeBytes n s.source = some (b, q)) (k : Nat) (got : List Byte) :
    sourceReadLoop (k + n) (k + n) got s = sourceReadLoop k k (got ++ b) (took n q s) := by
  induction n generalizing s b got with
  | zero =>
    cases h
    simp
  | succ n ih =>
    obtain ⟨c, q₁, cs, hc, hcs, rfl⟩ := takeBytes_succ_eq_some h
    calc sourceReadLoop (k + (n + 1)) (k + (n + 1)) got s
      _ = sourceReadLoop (k + n) (k + n) (got ++ [c]) (took 1 q₁ s) :=
          sourceReadLoop_nextByte hc (k + n) got
      _ = sourceReadLoop k k (got ++ [c] ++ cs) (took n q (took 1 q₁ s)) := ih hcs _
      _ = sourceReadLoop k k (got ++ c :: cs) (took (n + 1) q s) := by
          simp [Nat.add_comm]

/-- `SourceReadExact` has all its bytes when the source gives them. -/
theorem sourceReadExact_of_takeBytes {k : Nat} {s : State} {q : Source} {b : List Byte}
    (h : takeBytes k s.source = some (b, q)) : sourceReadExact k s = .full b (took k q s) := by
  simpa [sourceReadExact] using sourceReadLoop_takeBytes h 0 []

section
variable {n k : Nat} {s : State} {q q' : Source} {b : List Byte}
variable (hn : n < k) (h : takeBytes n s.source = some (b, q))
include hn h

/-- `SourceReadExact` reports the bytes there were when the source ends first. -/
theorem sourceReadExact_of_eof (hq : q.next = (.eof, q')) :
    sourceReadExact k s = .short b (took n q' s) := by
  obtain ⟨m, rfl⟩ : ∃ m, k = m + 1 + n := ⟨k - n - 1, by omega⟩
  have hs : (took n q s).source.next = (.eof, q') := hq
  rw [sourceReadExact, sourceReadLoop_takeBytes h, sourceReadLoop_of_eof _ _ _ hs]
  simp

/-- `SourceReadExact` reports the failure of a source that fails first. -/
theorem sourceReadExact_of_ioFail (hq : q.next = (.ioFail, q')) :
    sourceReadExact k s = .ioFail (took n q' s) := by
  obtain ⟨m, rfl⟩ : ∃ m, k = m + 1 + n := ⟨k - n - 1, by omega⟩
  have hs : (took n q s).source.next = (.ioFail, q') := hq
  rw [sourceReadExact, sourceReadLoop_takeBytes h, sourceReadLoop_of_ioFail _ _ _ hs]
  simp

end

/-- Settles O34: the loop is followed through the bytes the source gives, one by one, to its end. -/
theorem sourceReadExactCollects : Obligations.SourceReadExactCollects := by
  intro k s
  exact ⟨fun _ _ h => sourceReadExact_of_takeBytes h,
    fun _ _ _ _ hn h hq => sourceReadExact_of_eof hn h hq,
    fun _ _ _ _ hn h hq => sourceReadExact_of_ioFail hn h hq,
    takeBytes_or_stops k s.source⟩

/-! ### Commands that complete at once (R118, R406) -/

theorem completedOk_complete (cmd : Byte) (res : Results) (s : State) :
    completedOk cmd res s (complete cmd res s) := by
  simp [completedOk, statusWord, resultKindCode, resultCauseCode]

theorem completedError_raise (cmd : Byte) (c : Cause) (s : State) :
    completedError cmd c s (raise cmd c s) := by
  simp [completedError, statusWord, resultKindCode, resultCauseCode]

theorem oneShotOk_complete (cmd : Byte) (res : Results) (s : State) :
    oneShotOk cmd res s (complete cmd res s) :=
  ⟨completedOk_complete cmd res s, ⟨rfl, rfl⟩, rfl, rfl, rfl, ⟨rfl, rfl⟩, rfl, rfl, rfl, rfl, rfl⟩

/-- Error entry changes nothing but STATUS and the decoder when it leaves the sessions alone. -/
theorem oneShotError_raise {cmd : Byte} {c : Cause} {s : State}
    (hw : writerAfterRaise cmd c s.w = s.w) (hr : readerAfterRaise cmd c s.r = s.r) :
    oneShotError cmd c s (raise cmd c s) :=
  ⟨completedError_raise cmd c s, ⟨rfl, rfl⟩, hw, hr, ⟨rfl, rfl⟩, rfl, rfl, rfl, rfl, rfl⟩

/-! ### MAX_COMPRESS_LEN (R182) -/

theorem boundResult_toNat {n : Word64} (h : bound n.toNat < 2 ^ 64) :
    (boundResult n).toNat = bound n.toNat := by
  rw [boundResult, if_pos h, BitVec.toNat_ofNat, Nat.mod_eq_of_lt h]

/-- The bound of every block length fits the 64-bit result (R6, R117). -/
theorem bound_lt_of_le_maxBlockLen {n : Nat} (h : n ≤ Config.maxBlockLen) : bound n < 2 ^ 64 := by
  simp only [Config.maxBlockLen] at h
  simp only [bound, Config.boundConst]
  omega

theorem exec_maxCompressLen_of_refused {n : Word64} {s : State} (hn : Config.maxBlockLen < n.toNat)
    (hs : s.policy.oversize = .refused) :
    exec (.maxCompressLen n) s = .next (raise 0x10 .encodeInputTooLarge s) :=
  if_pos ⟨hn, hs⟩

theorem exec_maxCompressLen_of_le_or_answered {n : Word64} {s : State}
    (h : n.toNat ≤ Config.maxBlockLen ∨ s.policy.oversize = .answered) :
    exec (.maxCompressLen n) s = .next (complete 0x10 (.bound (boundResult n)) s) := by
  refine if_neg fun ⟨hn, hs⟩ => ?_
  obtain h | h := h
  · exact absurd hn (Nat.not_lt.mpr h)
  · rw [h] at hs; cases hs

/-- Settles O22: within the limit the bound fits its 64-bit result; above it the block's reading of the
spec picks the branch. -/
theorem maxCompressLenReportsBound : Obligations.MaxCompressLenReportsBound := by
  intro n s
  refine ⟨fun hn => ?_, fun hn hs => ?_, fun _ hs => ?_⟩
  · exact ⟨_, _, exec_maxCompressLen_of_le_or_answered (.inl hn),
      boundResult_toNat (bound_lt_of_le_maxBlockLen hn), oneShotOk_complete ..⟩
  · exact ⟨_, exec_maxCompressLen_of_refused hn hs, oneShotError_raise rfl rfl⟩
  · exact ⟨_, _, exec_maxCompressLen_of_le_or_answered (.inr hs), oneShotOk_complete ..,
      boundResult_toNat⟩

end Sys2Proof.Machine

namespace Sys2Proof.Machine
open Sys2Proof.Spec

/-! ### What the decoder answers (R101, R112) -/

/-- What `decode_elem` may answer for the input `b`: an element that lies within it, or a truncation. -/
def DecodesWithin (b : List Byte) : Except Cause (Instr × Nat) → Prop
  | .ok (i, k) => i.isElement = true ∧ k = i.size ∧ 0 < k ∧ k ≤ b.length
  | .error c => causeKind c = .corruptInput

theorem literalTail_within {k len : Nat} {t : Byte} {x rest : List Byte} {mk : List Byte → Instr}
    (hmk : ∀ b, (mk b).isElement = true ∧ (mk b).size = 1 + k + b.length)
    (hx : x.length = k + rest.length) : DecodesWithin (t :: x) (literalTail k len rest mk) := by
  unfold literalTail
  split
  · rfl
  · next h =>
    refine ⟨(hmk _).1, ?_, by omega, by rw [List.length_cons]; omega⟩
    rw [(hmk _).2, List.length_take_of_le (Nat.le_of_not_lt h)]

theorem decodeLiteralX_within {k : Nat} {t : Byte} {x : List Byte} {mk : List Byte → Instr}
    (hmk : ∀ b, (mk b).isElement = true ∧ (mk b).size = 1 + k + b.length) :
    DecodesWithin (t :: x) (decodeLiteralX k x mk) := by
  unfold decodeLiteralX
  split
  · rfl
  · exact literalTail_within hmk (by rw [List.length_drop]; omega)

theorem decodeLiteral_within (m : Nat) (t : Byte) (x : List Byte) :
    DecodesWithin (t :: x) (decodeLiteral m x) := by
  unfold decodeLiteral
  split
  · exact literalTail_within (fun _ => ⟨rfl, rfl⟩) (Nat.zero_add _).symm
  · split
    · exact decodeLiteralX_within fun _ => ⟨rfl, rfl⟩
    · split
      · exact decodeLiteralX_within fun _ => ⟨rfl, rfl⟩
      · split
        · exact decodeLiteralX_within fun _ => ⟨rfl, rfl⟩
        · exact decodeLiteralX_within fun _ => ⟨rfl, rfl⟩

theorem decodeCopy_within {n : Nat} {i : Instr} (t : Byte) (x : List Byte)
    (hi : i.isElement = true) (hn : n + 1 = i.size) :
    DecodesWithin (t :: x) (if x.length < n then .error .tagTruncated else .ok (i, n + 1)) := by
  split
  · rfl
  · exact ⟨hi, hn, n.succ_pos, by rw [List.length_cons]; omega⟩

theorem decodeElem_within (b : List Byte) : DecodesWithin b (decodeElem b) := by
  cases b with
  | nil => rfl
  | cons t x =>
    simp only [decodeElem]
    split
    · exact decodeLiteral_within ..
    · split
      · exact decodeCopy_within t x rfl rfl
      · split
        · exact decodeCopy_within t x rfl rfl
        · exact decodeCopy_within t x rfl rfl

/-- A decoded element has at least one byte and lies within the input (R107, R112). -/
theorem decodeElem_ok {b : List Byte} {i : Instr} {k : Nat} (h : decodeElem b = .ok (i, k)) :
    i.isElement = true ∧ k = i.size ∧ 0 < k ∧ k ≤ b.length := by
  have := decodeElem_within b
  rwa [h] at this

theorem decodeElem_error {b : List Byte} {c : Cause} (h : decodeElem b = .error c) :
    causeKind c = .corruptInput := by
  have := decodeElem_within b
  rwa [h] at this

/-! ### What an element does to DST (R245 to R249) -/

/-- What an element may do to DST under the declared length `len`: append to it within that length, or
fail as corrupt input. -/
def AppendsWithin (len : Nat) (dst : List Byte) : Except Cause (List Byte) → Prop
  | .ok dst' => dst <+: dst' ∧ dst'.length ≤ len
  | .error c => causeKind c = .corruptInput

theorem putLiteral_within (len : Nat) (b dst : List Byte) :
    AppendsWithin len dst (putLiteral len b dst) := by
  unfold putLiteral
  split
  · rfl
  · exact ⟨List.prefix_append .., by rw [List.length_append]; omega⟩

theorem copyBytes_extends (offset n : Nat) (dst : List Byte) : dst <+: copyBytes offset n dst := by
  induction n generalizing dst with
  | zero => exact List.prefix_rfl
  | succ n ih =>
    unfold copyBytes
    split
    · split
      · exact (List.prefix_append ..).trans (ih _)
      · exact List.prefix_rfl
    · exact List.prefix_rfl

theorem copyBytes_length_le (offset n : Nat) (dst : List Byte) :
    (copyBytes offset n dst).length ≤ dst.length + n := by
  induction n generalizing dst with
  | zero => exact Nat.le_refl _
  | succ n ih =>
    unfold copyBytes
    split
    · split
      · refine (ih _).trans (Nat.le_of_eq ?_)
        rw [List.length_append, List.length_singleton]
        omega
      · exact Nat.le_add_right ..
    · exact Nat.le_add_right ..

theorem copyExec_within (len offset n : Nat) (dst : List Byte) :
    AppendsWithin len dst (copyExec len offset n dst) := by
  unfold copyExec
  split
  · rfl
  · split
    · rfl
    · split
      · rfl
      · exact ⟨copyBytes_extends .., (copyBytes_length_le ..).trans (by omega)⟩

theorem elementEffect_within {i : Instr} (hi : i.isElement = true) (len : Nat) (dst : List Byte) :
    AppendsWithin len dst (elementEffect len i dst) := by
  cases i with
  | lit b | litX1 b | litX2 b | litX3 b | litX4 b => exact putLiteral_within ..
  | copy1 offset n | copy2 offset n | copy4 offset n => exact copyExec_within ..
  | _ => cases hi

/-- Every element runs as R244 says: its effect on DST, then the cursor moves by its size. -/
theorem exec_element {i : Instr} (hi : i.isElement = true) (s : State) :
    exec i s = runElement i.size (elementEffect s.dec.len i s.dec.dst) s := by
  cases i with
  | lit b | litX1 b | litX2 b | litX3 b | litX4 b => rfl
  | copy1 offset n | copy2 offset n | copy4 offset n => rfl
  | _ => cases hi

/-! ### What a step of a decode loop can do (R244, R250) -/

/-- The command whose decode loop the engine runs (R244, R360). -/
def decodingCmd : Engine → Byte
  | .decompressing => cmdDecompress
  | .idle | .reading _ | .decodingChunk _ _ => cmdFrRead

theorem raiseDecode_of_decoding {s : State} (hs : decoding s) (c : Cause) :
    raiseDecode c s = .next (raise (decodingCmd s.engine) c s) := by
  obtain h | ⟨max, stored, h⟩ := hs <;> simp [raiseDecode, decodingCmd, h]

/-- What a step of a decode loop can do: the element at the cursor appends to DST, the decode fails as
corrupt input, or it ends with all declared bytes written. -/
inductive DecodeStep (s : State) : State → Prop
  | element {i : Instr} {k : Nat} {dst : List Byte}
      (hi : decodeElem (s.dec.src.drop s.dec.pc) = .ok (i, k))
      (hpc : s.dec.pc + k ≤ s.dec.src.length) (hk : 0 < k)
      (hdst : s.dec.dst <+: dst) (hlen : dst.length ≤ s.dec.len) :
      DecodeStep s (s.setDec { s.dec with dst := dst, pc := s.dec.pc + k })
  | fails {c : Cause} (hc : causeKind c = .corruptInput) :
      DecodeStep s (raise (decodingCmd s.engine) c s)
  | ends (he : s.engine = .decompressing) (hlen : s.dec.dst.length = s.dec.len) :
      DecodeStep s (complete cmdDecompress (.bytes s.dec.dst) s)
  | endsChunk {max : Word64} {stored : List Byte} (he : s.engine = .decodingChunk max stored)
      (hlen : s.dec.dst.length = s.dec.len) :
      DecodeStep s (acceptData stored s.dec.dst (s.setEngine (.reading max)))

theorem fetch_of_decoding {s : State} (hs : decoding s) : fetch s = fetchElement s := by
  obtain h | ⟨max, stored, h⟩ := hs <;> simp [fetch, h]

theorem endCheck_step {s t : State} (hs : decoding s) (h : endCheck s = .next t) :
    DecodeStep s t := by
  unfold endCheck at h
  split at h
  · rw [raiseDecode_of_decoding hs] at h
    cases h
    exact .fails rfl
  · next hlen =>
    rw [not_not] at hlen
    split at h
    · next he => cases h; exact .ends he hlen
    · next he => cases h; exact .endsChunk he hlen
    · cases h
    · cases h

/-- In a decode loop a step runs the element at the cursor (R44, R244). -/
theorem step_of_element {s : State} {i : Instr} {k : Nat} (hs : decoding s)
    (hpc : s.dec.pc < s.dec.src.length) (hi : decodeElem (s.dec.src.drop s.dec.pc) = .ok (i, k)) :
    step s = exec i s := by
  simp [step, fetch_of_decoding hs, fetchElement, hpc, hi]

theorem exec_element_step {s t : State} {i : Instr} {k : Nat} (hs : decoding s)
    (hi : decodeElem (s.dec.src.drop s.dec.pc) = .ok (i, k)) (hpc : s.dec.pc < s.dec.src.length)
    (h : exec i s = .next t) : DecodeStep s t := by
  obtain ⟨helem, rfl, hk, hle⟩ := decodeElem_ok hi
  rw [List.length_drop] at hle
  rw [exec_element helem] at h
  have hw := elementEffect_within helem s.dec.len s.dec.dst
  obtain ⟨hf, -⟩ | ⟨dst, he, hrun⟩ | ⟨c, he, hrun⟩ :=
    runElement_cases i.size (elementEffect s.dec.len i s.dec.dst) s
  · cases hf.symm.trans h
  · cases hrun.symm.trans h
    rw [he] at hw
    exact .element hi (by omega) hk hw.1 hw.2
  · cases (hrun.trans (raiseDecode_of_decoding hs c)).symm.trans h
    rw [he] at hw
    exact .fails hw

theorem decodeStep_of_step {s t : State} (hs : decoding s) (h : step s = .next t) :
    DecodeStep s t := by
  by_cases hpc : s.dec.pc < s.dec.src.length
  · cases hi : decodeElem (s.dec.src.drop s.dec.pc) with
    | ok x => exact exec_element_step hs hi hpc (step_of_element hs hpc hi ▸ h)
    | error c =>
      simp only [step, fetch_of_decoding hs, fetchElement, hpc, hi, if_true,
        raiseDecode_of_decoding hs] at h
      cases h
      exact .fails (decodeElem_error hi)
  · simp only [step, fetch_of_decoding hs, fetchElement, hpc, if_false] at h
    exact endCheck_step hs h

theorem acceptData_cases (stored u : List Byte) (s : State) :
    acceptData stored u s = raise cmdFrRead .checksum (setCrcOf u s) ∨
      acceptData stored u s = (setCrcOf u s).setR { s.r with pending := u } := by
  unfold acceptData
  split
  · exact .inl rfl
  · exact .inr rfl

theorem not_decoding_acceptData {stored u : List Byte} {max : Word64} {s : State} :
    ¬ decoding (acceptData stored u (s.setEngine (.reading max))) := by
  obtain h | h := acceptData_cases stored u (s.setEngine (.reading max)) <;>
    simp [decoding, h, setCrcOf]

/-- Settles O52: of the steps of a decode loop, the element's alone lets the decode go on. -/
theorem cursorAdvancesByElementLength : Obligations.CursorAdvancesByElementLength := by
  intro s t i k hs _ hi h ht
  cases decodeStep_of_step hs h with
  | element hi' hpc hk hdst _ =>
    cases hi.symm.trans hi'
    exact ⟨rfl, Nat.lt_add_of_pos_right hk, hpc, rfl, rfl, hdst⟩
  | fails _ => simp [decoding] at ht
  | ends _ _ => simp [decoding] at ht
  | endsChunk _ _ => exact absurd ht not_decoding_acceptData

/-! ### What a step runs (R30, R44, R352) -/

theorem step_of_command {s : State} {c : HostCommand} {rest : List HostCommand} {i : Instr}
    (hs : s.engine = .idle) (hc : s.commands = c :: rest) (hi : decodeCommand c = .ok i) :
    step s = exec i (s.setCommands rest) := by
  simp [step, fetch, fetchCommand, hs, hc, hi]

theorem step_of_chunk {s t : State} {max : Word64} {hdr : List Byte} {i : Instr}
    (hs : s.engine = .reading max) (hp : s.r.pending = [])
    (hhdr : sourceReadExact 4 s = .full hdr t) (hi : decodeChunk hdr = .ok i) :
    step s = exec i t := by
  simp [step, fetch, fetchChunk, hs, hp, hhdr, hi]

theorem step_of_no_command {s : State} (hs : s.engine = .idle) (hc : s.commands = []) :
    step s = .next s := by
  simp [step, fetch, fetchCommand, hs, hc]

/-- Settles O51: the fetch is followed for each activity of the engine. -/
theorem stepRunsTheDecodedInstruction : Obligations.StepRunsTheDecodedInstruction :=
  ⟨fun _ _ _ _ => step_of_command, fun _ _ _ => step_of_element,
    fun _ _ _ _ _ => step_of_chunk, fun _ => step_of_no_command⟩

end Sys2Proof.Machine

namespace Sys2Proof.Machine
open Sys2Proof.Spec

/-! ### The hash table under the encoder (R42, R187 to R196) -/

theorem htOk_iff {t : HashTable} : htOk t = true ↔ htWf t = true ∧ ∀ e ∈ t, e.1 < 16384 := by
  simp [htOk]

theorem mem_htWrite {t : HashTable} {h : Nat} {v : BitVec 16} {e : Nat × BitVec 16}
    (he : e ∈ htWrite t h v) : e = (h, v) ∨ e ∈ t := by
  induction t with
  | nil =>
    unfold htWrite at he
    split at he <;> simp_all
  | cons x rest ih =>
    unfold htWrite at he
    split at he
    · split at he <;> simp_all
    · split at he
      · split at he <;> grind
      · grind

/-- A write within the 16384 entries keeps the table's form and size. -/
theorem htOk_htWrite {t : HashTable} {h : Nat} (v : BitVec 16) (ht : htOk t = true)
    (hh : h < 16384) : htOk (htWrite t h v) = true := by
  obtain ⟨hwf, hlt⟩ := htOk_iff.mp ht
  refine htOk_iff.mpr ⟨htWrite_wf h v hwf, fun e he => ?_⟩
  obtain rfl | he := mem_htWrite he
  · exact hh
  · exact hlt e he

theorem htOk_nil : htOk [] = true := rfl

theorem htOk_htOfWrites (writes : List (Nat × BitVec 16)) : htOk (htOfWrites writes) = true := by
  have hfold (t : HashTable) (ht : htOk t = true) :
      htOk (writes.foldl (fun t e => htWrite t (e.1 % 16384) e.2) t) = true := by
    induction writes generalizing t with
    | nil => exact ht
    | cons e rest ih => exact ih _ (htOk_htWrite _ ht (Nat.mod_lt _ (by decide)))
  exact hfold [] htOk_nil

theorem tableParamsLoop_shift (n fuel size shift : Nat) :
    shift - fuel ≤ (tableParamsLoop n fuel size shift).2 := by
  induction fuel generalizing size shift with
  | zero => exact Nat.le_refl _
  | succ fuel ih =>
    unfold tableParamsLoop
    split
    · have := ih (size * 2) (shift - 1)
      omega
    · exact Nat.sub_le ..

/-- The hash shift of every table size leaves at most 14 bits (R187). -/
theorem le_tableParams_shift (n : Nat) : 18 ≤ (tableParams n).2 :=
  tableParamsLoop_shift n 6 256 24

theorem shingleHash_lt {shift : Nat} (h : 18 ≤ shift) (x : Nat) : shingleHash shift x < 16384 := by
  have hx : x * 0x1E35A7BD % 2 ^ 32 < 2 ^ 32 := Nat.mod_lt _ (by decide)
  refine Nat.div_lt_of_lt_mul (hx.trans_le ?_)
  calc 2 ^ 32 = 2 ^ 18 * 16384 := by decide
    _ ≤ 2 ^ shift * 16384 := Nat.mul_le_mul_right _ (Nat.pow_le_pow_right (by decide) h)

/-- REF's registers in REF_BLOCK's loop: the table is as it should be, and every index the loop writes
next is within it (R187, R188). -/
structure RefOk (r : EncoderRegs) : Prop where
  ht : htOk r.ht = true
  shift : 18 ≤ r.shift
  nextHash : r.nextHash < 16384

namespace RefOk
variable {r : EncoderRegs}

theorem start (b : List Byte) (r : EncoderRegs) : RefOk (refStart b r) :=
  ⟨htOk_nil, le_tableParams_shift _, shingleHash_lt (le_tableParams_shift _) _⟩

theorem probe (h : RefOk r) (sNext : Nat) : RefOk (refProbe sNext r).1 :=
  ⟨h.ht, h.shift, h.nextHash⟩

theorem record (h : RefOk r) (b : List Byte) (sNext : Nat) : RefOk (refRecord b sNext r) :=
  ⟨htOk_htWrite _ h.ht h.nextHash, h.shift, shingleHash_lt h.shift _⟩

theorem afterCopy (h : RefOk r) (len : Nat) : RefOk (refAfterCopy len r) :=
  ⟨h.ht, h.shift, h.nextHash⟩

theorem postMatch (h : RefOk r) (x : Nat) : RefOk (refPostMatch x r) :=
  ⟨htOk_htWrite _ (htOk_htWrite _ h.ht (shingleHash_lt h.shift _)) (shingleHash_lt h.shift _),
    h.shift, h.nextHash⟩

theorem resume (h : RefOk r) (x : Nat) : RefOk (refResume x r) :=
  ⟨h.ht, h.shift, shingleHash_lt h.shift _⟩

theorem loop (b : List Byte) (fuel : Nat) (label : RefLabel) (out : List Instr) (h : RefOk r) :
    RefOk (refLoop b fuel label r out).2 := by
  induction fuel generalizing label r out with
  | zero => exact h
  | succ fuel ih =>
    cases label with
    | search sNext =>
      simp only [refLoop]
      split
      · exact h.probe sNext
      · split
        · exact ih _ _ ((h.probe sNext).record b _)
        · exact ih _ _ ((h.probe sNext).record b _)
    | found =>
      simp only [refLoop]
      split
      · exact h.afterCopy _
      · split
        · exact ih _ _ ((h.afterCopy _).postMatch _)
        · exact ih _ _ (((h.afterCopy _).postMatch _).resume _)

end RefOk

theorem htOk_refBlock (b : List Byte) {r : EncoderRegs} (h : htOk r.ht = true) :
    htOk (refBlock b r).2.ht = true := by
  unfold refBlock
  split
  · exact h
  · exact (RefOk.loop b _ _ _ (RefOk.start b r)).ht

theorem htOk_refBlocks (fuel : Nat) (src : List Byte) {r : EncoderRegs} (h : htOk r.ht = true) :
    htOk (refBlocks fuel src r).2.ht = true := by
  induction fuel generalizing src r with
  | zero => exact h
  | succ fuel ih =>
    unfold refBlocks
    split
    · exact h
    · exact ih _ (htOk_refBlock _ h)

/-- Compression keeps the table's form and size, under every policy. -/
theorem htOk_compressed (p : Config.EncoderChoice) (src : List Byte) {r : EncoderRegs}
    (h : htOk r.ht = true) : htOk (compressed p src r).2.ht = true := by
  cases p with
  | ref => exact htOk_refBlocks _ src h
  | other n => exact htOk_htOfWrites _

end Sys2Proof.Machine

namespace Sys2Proof.Machine
open Sys2Proof.Spec

/-! ### What the steps of a writer command can do (R310 to R322) -/

/-- From `s` a writer command's own steps have reached `t` (R436): only the writer, the encoder, the
checksum register and the sink have moved; the phase is as it was, an identifier once sent stays sent,
and the hash table keeps its form. -/
structure WriterRun (s t : State) : Prop where
  frame : t = { s with
    w := t.w, enc := t.enc, crc := t.crc, sinkScript := t.sinkScript, sink := t.sink }
  phase : t.w.phase = s.w.phase
  identSent : s.w.identSent = true → t.w.identSent = true
  ht : htOk s.enc.ht = true → htOk t.enc.ht = true

namespace WriterRun
variable {s t u : State}

theorem refl (s : State) : WriterRun s s := ⟨rfl, rfl, id, id⟩

theorem trans (h₁ : WriterRun s t) (h₂ : WriterRun t u) : WriterRun s u :=
  ⟨h₂.frame.trans (by rw [h₁.frame]), h₂.phase.trans h₁.phase, h₂.identSent ∘ h₁.identSent,
    h₂.ht ∘ h₁.ht⟩

theorem responses (h : WriterRun s t) : t.responses = s.responses := by rw [h.frame]

theorem r (h : WriterRun s t) : t.r = s.r := by rw [h.frame]

theorem sameConfig (h : WriterRun s t) : sameConfig s t := by
  rw [h.frame]
  exact ⟨rfl, rfl⟩

theorem setBuf (s : State) (b : List Byte) : WriterRun s (s.setW { s.w with buf := b }) :=
  ⟨rfl, rfl, id, id⟩

theorem setIdentSent (s : State) : WriterRun s (s.setW { s.w with identSent := true }) :=
  ⟨rfl, rfl, fun _ => rfl, id⟩

theorem setSinkScript (s : State) (script : SinkScript) : WriterRun s (s.setSinkScript script) :=
  ⟨rfl, rfl, id, id⟩

theorem setSink (s : State) (out : List Byte) : WriterRun s (s.setSink out) :=
  ⟨rfl, rfl, id, id⟩

theorem encode (u : List Byte) (s : State) :
    WriterRun s ((setCrcOf u s).setEnc (compressed s.policy.encoder u s.enc).2) :=
  ⟨rfl, rfl, id, htOk_compressed _ _⟩

end WriterRun

/-- The attempt is the run of a writer command's steps from `s`: it is done with a buffer that `p` holds
of, or the sink has failed it (R320). -/
inductive Attempt.Runs (s : State) (p : List Byte → Prop) : Attempt → Prop
  | done {t : State} (hrun : WriterRun s t) (hbuf : p t.w.buf) : Runs s p (.done t)
  | failed {c : Cause} {t : State} (hrun : WriterRun s t) (hc : writerCause c = true) :
      Runs s p (.failed c t)

section
variable {s t : State} {p : List Byte → Prop}

theorem WriterRun.runs {a : Attempt} (h : WriterRun s t) (ha : a.Runs t p) : a.Runs s p := by
  cases ha with
  | done hrun hbuf => exact .done (h.trans hrun) hbuf
  | failed hrun hc => exact .failed (h.trans hrun) hc

theorem sinkWriteLoop_runs (fuel : Nat) (b : List Byte) (hs : p s.w.buf) :
    (sinkWriteLoop fuel b s).Runs s p := by
  induction fuel generalizing b s with
  | zero =>
    unfold sinkWriteLoop
    split
    · exact .done (.refl s) hs
    · exact .failed (.refl s) rfl
  | succ fuel ih =>
    unfold sinkWriteLoop
    split
    · exact .done (.refl s) hs
    · split
      · exact .failed (.setSinkScript s _) rfl
      · split
        · exact .failed (.setSinkScript s _) rfl
        · exact ((WriterRun.setSinkScript s _).trans (.setSink _ _)).runs (ih _ hs)

theorem sinkWriteAll_runs (b : List Byte) (hs : p s.w.buf) : (sinkWriteAll b s).Runs s p :=
  sinkWriteLoop_runs b.length b hs

theorem sendIdent_runs (hs : p s.w.buf) : (sendIdent s).Runs s p := by
  unfold sendIdent
  split
  · exact .done (.refl s) hs
  · have hw := sinkWriteAll_runs identChunk hs
    split
    · next he => rwa [he] at hw
    · next he =>
      rw [he] at hw
      cases hw with
      | done hrun hbuf => exact .done (hrun.trans (.setIdentSent _)) hbuf

theorem sendData_runs (u : List Byte) (hs : p s.w.buf) : (sendData u s).Runs s p :=
  (WriterRun.encode u s).runs (sinkWriteAll_runs _ hs)

end

/-- EMIT_CHUNK ends with an empty buffer (R314). -/
theorem emitChunk_runs (s : State) : (emitChunk s).Runs s (· = []) := by
  unfold emitChunk
  have hw : (sendIdent (s.setW { s.w with buf := [] })).Runs s (· = []) :=
    (WriterRun.setBuf s []).runs (sendIdent_runs rfl)
  split
  · next he => rwa [he] at hw
  · next he =>
    rw [he] at hw
    cases hw with
    | done hrun hbuf => exact hrun.runs (sendData_runs _ hbuf)

/-- FW_WRITE's loop never leaves a full buffer where there was none (R312). -/
theorem writeBytes_runs (src : List Byte) {s : State} {p : Prop}
    (hs : p → s.w.buf.length < Config.chunkMax) :
    (writeBytes src s).Runs s (fun b => p → b.length < Config.chunkMax) := by
  induction src generalizing s with
  | nil => exact .done (.refl s) hs
  | cons b rest ih =>
    refine (WriterRun.setBuf s (s.w.buf ++ [b])).runs ?_
    simp only [writeBytes]
    split
    · have hw := emitChunk_runs (s.setW { s.w with buf := s.w.buf ++ [b] })
      split
      · next he =>
        rw [he] at hw
        cases hw with
        | done hrun hbuf => exact hrun.runs (ih fun _ => by rw [hbuf]; decide)
      · next he =>
        rw [he] at hw
        cases hw with
        | failed hrun hc => exact .failed hrun hc
    · next hne =>
      refine ih fun hp => Nat.lt_of_le_of_ne ?_ hne
      rw [State.setW_w, List.length_append]
      exact hs hp

theorem flushBuffer_runs (s : State) : (flushBuffer s).Runs s (· = []) := by
  unfold flushBuffer
  split
  · exact emitChunk_runs s
  · next h => exact .done (.refl s) (List.length_eq_zero_iff.mp (Nat.eq_zero_of_not_pos h))

end Sys2Proof.Machine

namespace Sys2Proof.Machine
open Sys2Proof.Spec

/-! ### Varints and declared lengths (R152, R241, R242, R254) -/

theorem varintDecodeLoop_ok_le {i k : Nat} {n m : Word64} {src : List Byte}
    (h : varintDecodeLoop i n src = .ok (m, k)) : k ≤ i + src.length := by
  induction src generalizing i n with
  | nil => cases h
  | cons b rest ih =>
    simp only [varintDecodeLoop] at h
    split at h
    · cases h
    · split at h
      · cases h
        rw [List.length_cons]
        omega
      · have := ih h
        rw [List.length_cons]
        omega

theorem varintDecodeLoop_error {i : Nat} {n : Word64} {src : List Byte} {c : Cause}
    (h : varintDecodeLoop i n src = .error c) : causeKind c = .corruptInput := by
  induction src generalizing i n with
  | nil => cases h; rfl
  | cons b rest ih =>
    simp only [varintDecodeLoop] at h
    split at h
    · cases h; rfl
    · split at h
      · cases h
      · exact ih h

theorem decompressHeader_ok {cap : Word32} {src : List Byte} {len h : Nat}
    (he : decompressHeader cap src = .ok (len, h)) :
    len ≤ Config.maxBlockLen ∧ h ≤ src.length := by
  unfold decompressHeader at he
  split at he
  · cases he
  · next hv =>
    have hle := varintDecodeLoop_ok_le hv
    rw [Nat.zero_add] at hle
    split at he
    · cases he
    · next hmax =>
      split at he
      · cases he
      · cases he
        exact ⟨Nat.le_of_not_lt hmax, hle⟩

theorem chunkDecodeHeader_ok {data : List Byte} {len h : Nat}
    (he : chunkDecodeHeader data = .ok (len, h)) :
    len ≤ Config.chunkMax ∧ h ≤ data.length := by
  unfold chunkDecodeHeader at he
  split at he
  · cases he
  · next hv =>
    have hle := varintDecodeLoop_ok_le hv
    rw [Nat.zero_add] at hle
    split at he
    · cases he
    · next hmax =>
      cases he
      exact ⟨Nat.le_of_not_lt hmax, hle⟩

theorem chunkDecodeHeader_error {data : List Byte} {c : Cause}
    (he : chunkDecodeHeader data = .error c) : causeKind c = .corruptInput := by
  unfold chunkDecodeHeader at he
  split at he
  · next hv => cases he; exact varintDecodeLoop_error hv
  · split at he <;> cases he
    rfl

/-! ### Error entry outside the sessions (R437) -/

theorem writerAfterRaise_of_not_writer {cmd : Byte} (h : isWriterCmd cmd = false) (c : Cause)
    (w : Writer) : writerAfterRaise cmd c w = w := by
  simp [writerAfterRaise, h]

theorem writerAfterRaise_of_illegal {c : Cause} (h : causeKind c = .illegalCommand) (cmd : Byte)
    (w : Writer) : writerAfterRaise cmd c w = w := by
  simp [writerAfterRaise, h]

theorem readerAfterRaise_of_ne {cmd : Byte} (h : cmd ≠ cmdFrRead) (c : Cause) (r : Reader) :
    readerAfterRaise cmd c r = r :=
  if_neg h

theorem ne_frRead_of_isWriterCmd {cmd : Byte} (h : isWriterCmd cmd = true) : cmd ≠ cmdFrRead := by
  rintro rfl
  cases h

/-! ### What the step of a host command can do (R117) -/

/-- What the step that takes the host command with code `cmd` can do, from the state in which the
command is off the queue. `refuses` is an error that leaves both sessions alone; `writerFailed` and
`readerFailed` repeat the error of a failed session. -/
inductive CommandStep (cmd : Byte) (s : State) : State → Prop
  | answers (res : Results) : CommandStep cmd s (complete cmd res s)
  | refuses {c : Cause} (hw : writerAfterRaise cmd c s.w = s.w)
      (hr : readerAfterRaise cmd c s.r = s.r) : CommandStep cmd s (raise cmd c s)
  | compresses (src : List Byte) (res : Results) :
      CommandStep cmd s (complete cmd res (s.setEnc (compressed s.policy.encoder src s.enc).2))
  | startsDecode {src : List Byte} {len h : Nat} (hlen : len ≤ Config.maxBlockLen)
      (hh : h ≤ src.length) :
      CommandStep cmd s ((startDecode src len h s).setEngine .decompressing)
  | writes {t : State} (res : Results) (ho : s.w.phase = .opened) (hrun : WriterRun s t)
      (hbuf : s.w.buf.length < Config.chunkMax → t.w.buf.length < Config.chunkMax) :
      CommandStep cmd s (complete cmd res t)
  | closes {t : State} (ho : s.w.phase = .opened) (hrun : WriterRun s t) (hbuf : t.w.buf = []) :
      CommandStep cmd s (complete cmd .none (t.setW { t.w with phase := .closed }))
  | writeFails {c : Cause} {t : State} (hcmd : isWriterCmd cmd = true) (ho : s.w.phase = .opened)
      (hrun : WriterRun s t) (hc : writerCause c = true) : CommandStep cmd s (raise cmd c t)
  | writerFailed {c : Cause} (hcmd : isWriterCmd cmd = true) (hc : s.w.phase = .failed c) :
      CommandStep cmd s (raise cmd c s)
  | readerFailed {c : Cause} (hcmd : cmd = cmdFrRead) (hc : s.r.fail = some c) :
      CommandStep cmd s (raise cmd c s)
  | delivers (hcmd : cmd = cmdFrRead) (max : Word64) : CommandStep cmd s (deliver max s)
  | startsRead {max : Word64} (hmax : max ≠ 0) (hfail : s.r.fail = none)
      (hp : s.r.pending = []) : CommandStep cmd s (s.setEngine (.reading max))
  | configures (hcmd : cmd = 0x51) (m : Word32) (b : Bool) :
      CommandStep cmd s (complete cmd .none ((s.setCfgMaxDecode m).setReqIdent b))
  | resetsWriter (hcmd : cmd = 0x7D) : CommandStep cmd s (complete cmd .none (openWriter s))
  | resetsReader (hcmd : cmd = 0x7E) : CommandStep cmd s (complete cmd .none (openReader s))
  | resets (hcmd : cmd = 0x7F) : CommandStep cmd s (complete cmd .none (resetBlock s))

section
variable {s t : State}

theorem execVarintDecode_step {src : List Byte} (h : execVarintDecode src s = .next t) :
    CommandStep 0x02 s t := by
  unfold execVarintDecode at h
  split at h <;> cases h
  · exact .answers _
  · exact .refuses rfl rfl

theorem execMaxCompressLen_step {n : Word64} (h : execMaxCompressLen n s = .next t) :
    CommandStep 0x10 s t := by
  unfold execMaxCompressLen at h
  split at h <;> cases h
  · exact .refuses rfl rfl
  · exact .answers _

theorem execCompress_step {src : List Byte} (h : execCompress src s = .next t) :
    CommandStep 0x11 s t := by
  unfold execCompress at h
  split at h <;> cases h
  · exact .refuses rfl rfl
  · exact .compresses src _

theorem execDecompress_step {src : List Byte} (h : execDecompress src s = .next t) :
    CommandStep cmdDecompress s t := by
  unfold execDecompress at h
  split at h <;> cases h
  · exact .refuses rfl rfl
  · next he =>
    obtain ⟨hlen, hh⟩ := decompressHeader_ok he
    exact .startsDecode hlen hh

/-- A writer command answers from a closed or failed session, or its own steps run. -/
theorem writerEntry_step {cmd : Byte} {body : State → State} (hcmd : isWriterCmd cmd = true)
    (hbody : s.w.phase = .opened → CommandStep cmd s (body s))
    (h : writerEntry cmd s body = .next t) : CommandStep cmd s t := by
  obtain ⟨c, hp, he⟩ | ⟨-, -, he⟩ | ⟨-, -, he⟩ | ⟨hp, he⟩ := writerEntry_cases cmd s body <;>
    cases he.symm.trans h
  · exact .writerFailed hcmd hp
  · exact .answers _
  · exact .refuses (writerAfterRaise_of_illegal rfl ..)
      (readerAfterRaise_of_ne (ne_frRead_of_isWriterCmd hcmd) ..)
  · exact hbody hp

theorem endWriter_step {cmd : Byte} {res : Results} {a : Attempt} {p : List Byte → Prop}
    (hcmd : isWriterCmd cmd = true) (ho : s.w.phase = .opened) (ha : a.Runs s p)
    (hp : ∀ b, p b → s.w.buf.length < Config.chunkMax → b.length < Config.chunkMax) :
    CommandStep cmd s (endWriter cmd res a) := by
  cases ha with
  | done hrun hbuf => exact .writes res ho hrun (hp _ hbuf)
  | failed hrun hc => exact .writeFails hcmd ho hrun hc

theorem closeWriter_step {cmd : Byte} {a : Attempt} (hcmd : isWriterCmd cmd = true)
    (ho : s.w.phase = .opened) (ha : a.Runs s (· = [])) :
    CommandStep cmd s (endWriter cmd .none (closeWriter a)) := by
  cases ha with
  | done hrun hbuf => exact .closes ho hrun hbuf
  | failed hrun hc => exact .writeFails hcmd ho hrun hc

theorem execFwWrite_step {src : List Byte} (h : execFwWrite src s = .next t) :
    CommandStep cmdFwWrite s t :=
  writerEntry_step rfl
    (fun ho => endWriter_step rfl ho (writeBytes_runs src id) fun _ => id) h

theorem execFwFlush_step (h : execFwFlush s = .next t) : CommandStep cmdFwFlush s t :=
  writerEntry_step rfl
    (fun ho => endWriter_step rfl ho (flushBuffer_runs s) fun _ hb _ => by rw [hb]; decide) h

theorem execFwClose_step (h : execFwClose s = .next t) : CommandStep cmdFwClose s t :=
  writerEntry_step rfl (fun ho => closeWriter_step rfl ho (flushBuffer_runs s)) h

theorem execFrRead_step {max : Word64} (h : execFrRead max s = .next t) :
    CommandStep cmdFrRead s t := by
  unfold execFrRead at h
  split at h
  · next hc => cases h; exact .readerFailed rfl hc
  · next hfail =>
    split at h <;> cases h
    · exact .answers _
    · next hmax =>
      unfold frLoop
      split
      · next hp => exact .startsRead hmax hfail hp
      · exact .delivers rfl max

theorem execReadReg_step {r : Byte} (h : execReadReg r s = .next t) : CommandStep 0x50 s t := by
  unfold execReadReg at h
  split at h <;> cases h
  · exact .answers _
  · exact .refuses rfl rfl

theorem writeRegister_ok {r : Byte} {v : Word32} (h : writeRegister r v s = .ok t) :
    ∃ m b, t = (s.setCfgMaxDecode m).setReqIdent b := by
  unfold writeRegister at h
  split at h
  · cases h; exact ⟨v, s.reqIdent, rfl⟩
  · split at h
    · cases h; exact ⟨s.cfgMaxDecode, v.getLsbD 0, rfl⟩
    · split at h <;> cases h

theorem execWriteReg_step {r : Byte} {v : Word32} (h : execWriteReg r v s = .next t) :
    CommandStep 0x51 s t := by
  unfold execWriteReg at h
  split at h <;> cases h
  · next he =>
    obtain ⟨m, b, rfl⟩ := writeRegister_ok he
    exact .configures rfl m b
  · exact .refuses rfl rfl

end

section
variable {p : Prop} [Decidable p] {i j : Instr} {e : Except Cause Instr} {c : Cause}

theorem ok_of_ite (h : (if p then .ok i else e) = .ok j) : p ∧ i = j ∨ e = .ok j := by
  split at h
  · next hp => cases h; exact .inl ⟨hp, rfl⟩
  · exact .inr h

theorem error_of_ite (h : (if p then .ok i else e) = .error c) : ¬ p ∧ e = .error c := by
  split at h
  · cases h
  · next hp => exact ⟨hp, h⟩

end

theorem decodeCommand_error {c : HostCommand} {e : Cause} (h : decodeCommand c = .error e) :
    e = .unknownCommand ∧ c.code ≠ cmdFrRead := by
  unfold decodeCommand at h
  iterate 8 replace h := (error_of_ite h).2
  obtain ⟨hne, h⟩ := error_of_ite h
  iterate 5 replace h := (error_of_ite h).2
  cases h
  exact ⟨rfl, hne⟩

theorem exec_command_step {s t : State} {c : HostCommand} {i : Instr} (hi : decodeCommand c = .ok i)
    (h : exec i s = .next t) : CommandStep c.code s t := by
  unfold decodeCommand at hi
  obtain ⟨hcode, rfl⟩ | hi := ok_of_ite hi
  · rw [hcode]; cases h; exact .answers _
  obtain ⟨hcode, rfl⟩ | hi := ok_of_ite hi
  · rw [hcode]; exact execVarintDecode_step h
  obtain ⟨hcode, rfl⟩ | hi := ok_of_ite hi
  · rw [hcode]; exact execMaxCompressLen_step h
  obtain ⟨hcode, rfl⟩ | hi := ok_of_ite hi
  · rw [hcode]; exact execCompress_step h
  obtain ⟨hcode, rfl⟩ | hi := ok_of_ite hi
  · rw [hcode]; exact execDecompress_step h
  obtain ⟨hcode, rfl⟩ | hi := ok_of_ite hi
  · rw [hcode]; exact execFwWrite_step h
  obtain ⟨hcode, rfl⟩ | hi := ok_of_ite hi
  · rw [hcode]; exact execFwFlush_step h
  obtain ⟨hcode, rfl⟩ | hi := ok_of_ite hi
  · rw [hcode]; exact execFwClose_step h
  obtain ⟨hcode, rfl⟩ | hi := ok_of_ite hi
  · rw [hcode]; exact execFrRead_step h
  obtain ⟨hcode, rfl⟩ | hi := ok_of_ite hi
  · rw [hcode]; exact execReadReg_step h
  obtain ⟨hcode, rfl⟩ | hi := ok_of_ite hi
  · rw [hcode]; exact execWriteReg_step h
  obtain ⟨hcode, rfl⟩ | hi := ok_of_ite hi
  · rw [hcode]; cases h; exact .resetsWriter rfl
  obtain ⟨hcode, rfl⟩ | hi := ok_of_ite hi
  · rw [hcode]; cases h; exact .resetsReader rfl
  obtain ⟨hcode, rfl⟩ | hi := ok_of_ite hi
  · rw [hcode]; cases h; exact .resets rfl
  cases hi

theorem commandStep_of_step {s t : State} {c : HostCommand} {rest : List HostCommand}
    (hs : s.engine = .idle) (hc : s.commands = c :: rest) (h : step s = .next t) :
    CommandStep c.code (s.setCommands rest) t := by
  cases hi : decodeCommand c with
  | ok i => exact exec_command_step hi (step_of_command hs hc hi ▸ h)
  | error e =>
    obtain ⟨rfl, hne⟩ := decodeCommand_error hi
    simp only [step, fetch, hs, fetchCommand, hc, hi] at h
    cases h
    exact .refuses (writerAfterRaise_of_illegal rfl ..) (readerAfterRaise_of_ne hne ..)

end Sys2Proof.Machine

namespace Sys2Proof.Machine
open Sys2Proof.Spec

/-! ### Reads of the source (R77, R80) -/

section
variable (n : Nat) (q : Source) (s : State)
@[simp] theorem took_r : (took n q s).r = { s.r with consumed := s.r.consumed + n } := rfl
@[simp] theorem took_w : (took n q s).w = s.w := rfl
@[simp] theorem took_enc : (took n q s).enc = s.enc := rfl
@[simp] theorem took_engine : (took n q s).engine = s.engine := rfl
@[simp] theorem took_status : (took n q s).status = s.status := rfl
@[simp] theorem took_responses : (took n q s).responses = s.responses := rfl
@[simp] theorem took_cfgMaxDecode : (took n q s).cfgMaxDecode = s.cfgMaxDecode := rfl
@[simp] theorem took_reqIdent : (took n q s).reqIdent = s.reqIdent := rfl
end

theorem takeBytes_length {n : Nat} {q q' : Source} {b : List Byte}
    (h : takeBytes n q = some (b, q')) : b.length = n := by
  induction n generalizing q b with
  | zero => cases h; rfl
  | succ n ih =>
    obtain ⟨c, q₁, cs, -, hcs, rfl⟩ := takeBytes_succ_eq_some h
    rw [List.length_cons, ih hcs]

/-- Whatever its answer, `SourceReadExact` has taken bytes of the source and nothing else (R80). -/
theorem sourceReadExact_took (k : Nat) (s : State) :
    ∃ n q, (sourceReadExact k s).state = took n q s := by
  obtain ⟨b, q, h⟩ | ⟨n, b, q, q', hn, h, hq | hq⟩ := takeBytes_or_stops k s.source
  · exact ⟨k, q, congrArg ExactRead.state (sourceReadExact_of_takeBytes h)⟩
  · exact ⟨n, q', congrArg ExactRead.state (sourceReadExact_of_eof hn h hq)⟩
  · exact ⟨n, q', congrArg ExactRead.state (sourceReadExact_of_ioFail hn h hq)⟩

theorem sourceReadExact_full_length {k : Nat} {s t : State} {b : List Byte}
    (hread : sourceReadExact k s = .full b t) : b.length = k := by
  obtain ⟨b', q, h⟩ | ⟨n, b', q, q', hn, h, hq | hq⟩ := takeBytes_or_stops k s.source
  · cases (sourceReadExact_of_takeBytes h).symm.trans hread
    exact takeBytes_length h
  · cases (sourceReadExact_of_eof hn h hq).symm.trans hread
  · cases (sourceReadExact_of_ioFail hn h hq).symm.trans hread

/-! ### CHECK_HEADER (R355) -/

theorem readerCause_of_corrupt {c : Cause} (h : causeKind c = .corruptInput) :
    readerCause c = true := by
  simp [readerCause, h]

theorem checkHeader_some {ty : Byte} {len : Nat} {s : State} {c : Cause}
    (h : checkHeader ty len s = some c) : causeKind c = .corruptInput := by
  unfold checkHeader at h
  iterate 6 (split at h; · cases h; rfl)
  cases h

/-- The bounds a data chunk's header has passed. -/
theorem checkHeader_none {ty : Byte} {len : Nat} {s : State} (h : checkHeader ty len s = none) :
    (ty = 0x00 ∨ ty = 0x01 → 4 ≤ len) ∧ (ty = 0x01 → len - 4 ≤ Config.chunkMax) := by
  unfold checkHeader at h
  iterate 2 (split at h; · cases h)
  split at h
  · cases h
  next hshort =>
  split at h
  · cases h
  next hlong =>
  exact ⟨fun hty => by_contra fun hlt => hshort ⟨hty, Nat.lt_of_not_le hlt⟩,
    fun hty => by_contra fun hlt => hlong ⟨hty, Nat.lt_of_not_le hlt⟩⟩

/-! ### What a step of FR_READ's loop can do (R351, R352) -/

/-- What a step of the loop of `FR_READ(max)` can do; `took n q s` is the state after the bytes the step
has read. -/
inductive ReadStep (max : Word64) (s : State) : State → Prop
  | delivers : ReadStep max s (deliver max s)
  | ends (n : Nat) (q : Source) (hp : s.r.pending = []) : ReadStep max s (endOfStream (took n q s))
  | fails {c : Cause} (n : Nat) (q : Source) (hc : readerCause c = true) :
      ReadStep max s (raise cmdFrRead c (took n q s))
  | skips (n : Nat) (q : Source) : ReadStep max s (took n q s)
  | identifies (n : Nat) (q : Source) :
      ReadStep max s ((took n q s).setR { (took n q s).r with identSeen := true })
  | accepts {u : List Byte} (stored : List Byte) (n : Nat) (q : Source)
      (hu : u.length ≤ Config.chunkMax) : ReadStep max s (acceptData stored u (took n q s))
  | startsDecode {data stored : List Byte} {len h : Nat} (n : Nat) (q : Source)
      (hp : s.r.pending = []) (hlen : len ≤ Config.chunkMax) (hh : h ≤ data.length)
      (hstored : stored.length = 4) :
      ReadStep max s ((startDecode data len h (took n q s)).setEngine (.decodingChunk max stored))

section
variable {max : Word64} {s t : State} {m : Nat} {q₀ : Source} (hs : s.engine = .reading max)
include hs

/-- A chunk fails in its header or its payload, or does what it does with its whole payload. -/
theorem runChunk_step {ty : Byte} {len : Nat} {dispatch : Word64 → List Byte → State → State}
    (hdispatch : ∀ p n q, checkHeader ty len (took m q₀ s) = none → p.length = len →
      ReadStep max s (dispatch max p (took n q s)))
    (h : runChunk ty len (took m q₀ s) dispatch = .next t) : ReadStep max s t := by
  obtain ⟨-, hne⟩ | ⟨max', hmax, hcases⟩ := runChunk_cases ty len (took m q₀ s) dispatch
  · exact absurd hs (hne max)
  · cases hmax.symm.trans hs
    obtain ⟨n, q, hst⟩ := sourceReadExact_took len (took m q₀ s)
    rw [took_took] at hst
    obtain ⟨c, hc, he⟩ | ⟨hc, ⟨s', hread, he⟩ | ⟨b, s', hread, he⟩ | ⟨p, s', hread, he⟩⟩ := hcases <;>
      cases he.symm.trans h
    · exact .fails m q₀ (readerCause_of_corrupt (checkHeader_some hc))
    · obtain rfl : s' = took (m + n) q s := by rwa [hread] at hst
      exact .fails _ q rfl
    · obtain rfl : s' = took (m + n) q s := by rwa [hread] at hst
      exact .fails _ q rfl
    · obtain rfl : s' = took (m + n) q s := by rwa [hread] at hst
      exact hdispatch p _ q hc (sourceReadExact_full_length hread)

theorem exec_chunk_step {i : Instr} (hi : i.isChunk = true) (hp : s.r.pending = [])
    (h : exec i (took m q₀ s) = .next t) : ReadStep max s t := by
  cases i with
  | chunkCompressed len =>
    refine runChunk_step hs (fun p n q hc hlen => ?_) h
    split
    · next he => exact .fails n q (readerCause_of_corrupt (chunkDecodeHeader_error he))
    · next he =>
      obtain ⟨hmax, hh⟩ := chunkDecodeHeader_ok he
      have h4 := (checkHeader_none hc).1 (.inl rfl)
      exact .startsDecode n q hp hmax hh (List.length_take_of_le (hlen ▸ h4))
  | chunkUncompressed len =>
    refine runChunk_step hs (fun p n q hc hlen => ?_) h
    exact .accepts _ n q (by rw [List.length_drop, hlen]; exact (checkHeader_none hc).2 rfl)
  | chunkReserved ty len => exact runChunk_step hs (fun _ n q _ _ => .fails n q rfl) h
  | chunkSkip ty len => exact runChunk_step hs (fun _ n q _ _ => .skips n q) h
  | chunkPad len => exact runChunk_step hs (fun _ n q _ _ => .skips n q) h
  | chunkIdent len =>
    refine runChunk_step hs (fun p n q _ _ => ?_) h
    split
    · exact .fails n q rfl
    · exact .identifies n q
  | _ => cases hi

end

theorem decodeChunk_ok {hdr : List Byte} {i : Instr} (h : decodeChunk hdr = .ok i) :
    i.isChunk = true := by
  unfold decodeChunk at h
  split at h <;> cases h
  unfold chunkOf
  iterate 5 (split; · rfl)
  rfl

theorem decodeChunk_error {hdr : List Byte} {c : Cause} (h : decodeChunk hdr = .error c) :
    c = .truncatedStream := by
  unfold decodeChunk at h
  split at h <;> cases h
  rfl

theorem readStep_of_step {max : Word64} {s t : State} (hs : s.engine = .reading max)
    (h : step s = .next t) : ReadStep max s t := by
  by_cases hp : s.r.pending = []
  · obtain ⟨n, q, hst⟩ := sourceReadExact_took 4 s
    cases hread : sourceReadExact 4 s with
    | full hdr s' =>
      obtain rfl : s' = took n q s := by rwa [hread] at hst
      cases hi : decodeChunk hdr with
      | ok i => exact exec_chunk_step hs (decodeChunk_ok hi) hp (step_of_chunk hs hp hread hi ▸ h)
      | error c =>
        simp only [step, fetch, hs, fetchChunk, hp, hread, hi] at h
        cases h
        rw [decodeChunk_error hi]
        exact .fails n q rfl
    | short got s' =>
      obtain rfl : s' = took n q s := by rwa [hread] at hst
      by_cases hgot : got = []
      · simp only [step, fetch, hs, fetchChunk, hp, hread, hgot] at h
        cases h
        exact .ends n q hp
      · simp only [step, fetch, hs, fetchChunk, hp, hread, hgot] at h
        cases h
        exact .fails n q rfl
    | ioFail s' =>
      obtain rfl : s' = took n q s := by rwa [hread] at hst
      simp only [step, fetch, hs, fetchChunk, hp, hread] at h
      cases h
      exact .fails n q rfl
  · simp only [step, fetch, hs, fetchChunk, ne_eq, hp, not_false_eq_true, if_true] at h
    cases h
    exact .delivers

/-! ### What a step can do (R30, R44) -/

/-- Every step is one of four: the idle engine waits, it takes a host command, or a decode loop or
FR_READ's loop goes on. -/
theorem step_cases {s t : State} (h : step s = .next t) :
    (s.engine = .idle ∧ s.commands = [] ∧ t = s) ∨
    (∃ c rest, s.engine = .idle ∧ s.commands = c :: rest ∧
      CommandStep c.code (s.setCommands rest) t) ∨
    (decoding s ∧ DecodeStep s t) ∨
    ∃ max, s.engine = .reading max ∧ ReadStep max s t := by
  cases hs : s.engine with
  | idle =>
    cases hc : s.commands with
    | nil => cases (step_of_no_command hs hc).symm.trans h; exact .inl ⟨rfl, rfl, rfl⟩
    | cons c rest => exact .inr (.inl ⟨c, rest, rfl, rfl, commandStep_of_step hs hc h⟩)
  | decompressing => exact .inr (.inr (.inl ⟨.inl hs, decodeStep_of_step (.inl hs) h⟩))
  | decodingChunk max stored =>
    have hd : decoding s := .inr ⟨max, stored, hs⟩
    exact .inr (.inr (.inl ⟨hd, decodeStep_of_step hd h⟩))
  | reading max => exact .inr (.inr (.inr ⟨max, rfl, readStep_of_step hs h⟩))

end Sys2Proof.Machine

namespace Sys2Proof.Machine
open Sys2Proof.Spec

/-! ### What the checksum comparison leaves unchanged (R296, R359) -/

section
variable (stored u : List Byte) (s : State)

theorem acceptData_w : (acceptData stored u s).w = s.w := by
  obtain h | h := acceptData_cases stored u s <;> rw [h] <;> rfl

theorem acceptData_enc : (acceptData stored u s).enc = s.enc := by
  obtain h | h := acceptData_cases stored u s <;> rw [h] <;> rfl

theorem acceptData_identSeen : (acceptData stored u s).r.identSeen = s.r.identSeen := by
  obtain h | h := acceptData_cases stored u s <;> rw [h] <;> rfl

theorem acceptData_cfgMaxDecode : (acceptData stored u s).cfgMaxDecode = s.cfgMaxDecode := by
  obtain h | h := acceptData_cases stored u s <;> rw [h] <;> rfl

theorem acceptData_reqIdent : (acceptData stored u s).reqIdent = s.reqIdent := by
  obtain h | h := acceptData_cases stored u s <;> rw [h] <;> rfl

end

/-! ### The hash table (O56) -/

section
variable {s t : State}

theorem CommandStep.htOk {cmd : Byte} (h : CommandStep cmd s t) (hs : htOk s.enc.ht = true) :
    htOk t.enc.ht = true := by
  cases h with
  | compresses src res => exact htOk_compressed _ _ hs
  | writes res ho hrun hbuf => exact hrun.ht hs
  | closes ho hrun hbuf => exact hrun.ht hs
  | writeFails hcmd ho hrun hc => exact hrun.ht hs
  | resets hcmd => exact htOk_nil
  | _ => exact hs

theorem DecodeStep.enc (h : DecodeStep s t) : t.enc = s.enc := by
  cases h with
  | endsChunk he hlen => exact acceptData_enc ..
  | _ => rfl

theorem ReadStep.enc {max : Word64} (h : ReadStep max s t) : t.enc = s.enc := by
  cases h with
  | accepts stored n q hu => exact acceptData_enc ..
  | _ => rfl

end

/-- Settles O56: only compression and RESET touch the table. -/
theorem everyStepKeepsTheHashTable : Obligations.EveryStepKeepsTheHashTable := by
  intro s t hs h
  obtain ⟨-, -, rfl⟩ | ⟨c, rest, -, -, hc⟩ | ⟨-, hd⟩ | ⟨max, -, hr⟩ := step_cases h
  · exact hs
  · exact hc.htOk hs
  · rwa [hd.enc]
  · rwa [hr.enc]

/-! ### STATUS and the last response (R35, R118, R406) -/

/-- The error a response reports. -/
def Response.error? : Response → Option Cause
  | .ok _ => none
  | .error c => some c

/-- The step has given no response and left STATUS alone, or it has ended command `cmd`: it has given
one response, and STATUS holds its result. -/
def Reports (cmd : Byte) (s t : State) : Prop :=
  (t.responses = s.responses ∧ t.status = s.status) ∨
    ∃ resp, t.responses = s.responses ++ [resp] ∧ t.engine = .idle ∧
      t.status = { result := resp.error?, lastCmd := cmd }

section
variable {cmd : Byte} {s s' t : State}

theorem reports_complete {res : Results} (h : s'.responses = s.responses) :
    Reports cmd s (complete cmd res s') :=
  .inr ⟨.ok res, by rw [complete_responses, h], rfl, rfl⟩

theorem reports_raise {c : Cause} (h : s'.responses = s.responses) :
    Reports cmd s (raise cmd c s') :=
  .inr ⟨.error c, by rw [raise_responses, h], rfl, rfl⟩

theorem reports_acceptData {stored u : List Byte} (h : s'.responses = s.responses)
    (hst : s'.status = s.status) : Reports cmdFrRead s (acceptData stored u s') := by
  obtain he | he := acceptData_cases stored u s' <;> rw [he]
  · exact reports_raise h
  · exact .inl ⟨h, hst⟩

theorem CommandStep.reports (h : CommandStep cmd s t) : Reports cmd s t := by
  cases h with
  | answers res => exact reports_complete rfl
  | refuses hw hr => exact reports_raise rfl
  | compresses src res => exact reports_complete rfl
  | startsDecode hlen hh => exact .inl ⟨rfl, rfl⟩
  | writes res ho hrun hbuf => exact reports_complete hrun.responses
  | closes ho hrun hbuf => exact reports_complete hrun.responses
  | writeFails hcmd ho hrun hc => exact reports_raise hrun.responses
  | writerFailed hcmd hc => exact reports_raise rfl
  | readerFailed hcmd hc => exact reports_raise rfl
  | delivers hcmd max => cases hcmd; exact reports_complete rfl
  | startsRead hmax hfail hp => exact .inl ⟨rfl, rfl⟩
  | configures hcmd m b => exact reports_complete rfl
  | resetsWriter hcmd => exact reports_complete rfl
  | resetsReader hcmd => exact reports_complete rfl
  | resets hcmd => exact reports_complete rfl

theorem DecodeStep.reports (h : DecodeStep s t) : Reports (decodingCmd s.engine) s t := by
  cases h with
  | element hi hpc hk hdst hlen => exact .inl ⟨rfl, rfl⟩
  | fails hc => exact reports_raise rfl
  | ends he hlen => rw [he]; exact reports_complete rfl
  | endsChunk he hlen => rw [he]; exact reports_acceptData rfl rfl

theorem ReadStep.reports {max : Word64} (h : ReadStep max s t) : Reports cmdFrRead s t := by
  cases h with
  | delivers => exact reports_complete rfl
  | ends n q hp => exact reports_complete rfl
  | fails n q hc => exact reports_raise rfl
  | skips n q => exact .inl ⟨rfl, rfl⟩
  | identifies n q => exact .inl ⟨rfl, rfl⟩
  | accepts stored n q hu => exact reports_acceptData rfl rfl
  | startsDecode n q hp hlen hh hstored => exact .inl ⟨rfl, rfl⟩

end

/-- The command whose end a step may report: the host's next one, or the one that runs. -/
theorem step_reports {s t : State} (h : step s = .next t) : ∃ cmd, Reports cmd s t ∧
    (∀ c rest, s.engine = .idle → s.commands = c :: rest → cmd = c.code) ∧
    (s.engine = .decompressing → cmd = 0x20) ∧
    ((∃ max, s.engine = .reading max) ∨ (∃ max stored, s.engine = .decodingChunk max stored) →
      cmd = 0x40) := by
  obtain ⟨hs, hc, rfl⟩ | ⟨c, rest, hs, hc, hcmd⟩ | ⟨hs, hd⟩ | ⟨max, hs, hr⟩ := step_cases h
  · exact ⟨0, .inl ⟨rfl, rfl⟩, by simp [hc], by simp [hs], by simp [hs]⟩
  · exact ⟨c.code, hcmd.reports, by simp [hc], by simp [hs], by simp [hs]⟩
  · refine ⟨_, hd.reports, ?_⟩
    obtain hs | ⟨max, stored, hs⟩ := hs <;> simp [hs, decodingCmd, cmdDecompress, cmdFrRead]
  · exact ⟨_, hr.reports, by simp [hs], by simp [hs], fun _ => rfl⟩

/-- Settles O58: the response's own result is what STATUS holds. -/
theorem statusMatchesTheLastResponse : Obligations.StatusMatchesTheLastResponse := by
  intro s t h
  obtain ⟨cmd, hrep, hidle, hdec, hread⟩ := step_reports h
  refine hrep.imp id fun ⟨resp, hresp, he, hst⟩ => ⟨resp, hresp, he, ?_⟩
  simp only [hst]
  refine ⟨?_, hidle, hdec, hread⟩
  cases resp <;> rfl

/-! ### What only the resets clear (R45, R438) -/

/-- The identifier flag and the failure of the writer session stand. -/
def WriterKept (w w' : Writer) : Prop :=
  (w.identSent = true → w'.identSent = true) ∧ ∀ c, w.phase = .failed c → w'.phase = .failed c

/-- The identifier flag and the failure of the reader session stand. -/
def ReaderKept (r r' : Reader) : Prop :=
  (r.identSeen = true → r'.identSeen = true) ∧ ∀ c, r.fail = some c → r'.fail = some c

theorem WriterKept.refl (w : Writer) : WriterKept w w := ⟨id, fun _ => id⟩
theorem ReaderKept.refl (r : Reader) : ReaderKept r r := ⟨id, fun _ => id⟩

theorem writerAfterRaise_identSent (cmd : Byte) (c : Cause) (w : Writer) :
    (writerAfterRaise cmd c w).identSent = w.identSent := by
  unfold writerAfterRaise
  split <;> rfl

theorem writerAfterRaise_phase_of_failed {cmd : Byte} {c : Cause} {w : Writer}
    (h : w.phase = .failed c) : (writerAfterRaise cmd c w).phase = .failed c := by
  unfold writerAfterRaise
  split
  · rfl
  · exact h

theorem readerAfterRaise_identSeen (cmd : Byte) (c : Cause) (r : Reader) :
    (readerAfterRaise cmd c r).identSeen = r.identSeen := by
  unfold readerAfterRaise
  split <;> rfl

/-- A session that has not failed keeps its failure vacuously. -/
theorem WriterKept.of_opened {w w' : Writer} (h : w.identSent = true → w'.identSent = true)
    (ho : w.phase = .opened) : WriterKept w w' :=
  ⟨h, fun c hc => by rw [ho] at hc; cases hc⟩

theorem ReaderKept.of_ok {r r' : Reader} (h : r.identSeen = true → r'.identSeen = true)
    (ho : r.fail = none) : ReaderKept r r' :=
  ⟨h, fun c hc => by rw [ho] at hc; cases hc⟩

section
variable {cmd : Byte} {s t : State}

theorem CommandStep.writerKept (h : CommandStep cmd s t) (hcmd : cmd ∉ [(0x7D : Byte), 0x7F]) :
    WriterKept s.w t.w := by
  cases h with
  | refuses hw hr => rw [raise_w, hw]; exact .refl _
  | writes res ho hrun hbuf => exact .of_opened hrun.identSent ho
  | closes ho hrun hbuf => exact .of_opened hrun.identSent ho
  | writeFails hcmd ho hrun hc =>
    exact .of_opened (fun hi => (writerAfterRaise_identSent ..).trans (hrun.identSent hi)) ho
  | writerFailed hcmd hc =>
    refine ⟨(writerAfterRaise_identSent ..).trans, fun c' hc' => ?_⟩
    cases hc.symm.trans hc'
    exact writerAfterRaise_phase_of_failed hc
  | readerFailed hcmd hc => cases hcmd; exact .refl _
  | resetsWriter hcmd' => simp [hcmd'] at hcmd
  | resets hcmd' => simp [hcmd'] at hcmd
  | _ => exact .refl _

theorem CommandStep.readerKept (h : CommandStep cmd s t) (hcmd : cmd ∉ [(0x7E : Byte), 0x7F]) :
    ReaderKept s.r t.r := by
  cases h with
  | refuses hw hr => rw [raise_r, hr]; exact .refl _
  | writes res ho hrun hbuf => rw [complete_r, hrun.r]; exact .refl _
  | closes ho hrun hbuf => rw [complete_r, State.setW_r, hrun.r]; exact .refl _
  | writeFails hw ho hrun hc =>
    rw [raise_r, hrun.r, readerAfterRaise_of_ne (ne_frRead_of_isWriterCmd hw)]
    exact .refl _
  | writerFailed hw hc =>
    rw [raise_r, readerAfterRaise_of_ne (ne_frRead_of_isWriterCmd hw)]
    exact .refl _
  | readerFailed hr hc =>
    cases hr
    exact ⟨id, fun c' hc' => hc.symm.trans hc' ▸ rfl⟩
  | delivers hr max => exact ⟨id, fun _ => id⟩
  | resetsReader hcmd' => simp [hcmd'] at hcmd
  | resets hcmd' => simp [hcmd'] at hcmd
  | _ => exact .refl _

theorem CommandStep.sameConfig (h : CommandStep cmd s t) (hcmd : cmd ∉ [(0x51 : Byte), 0x7F]) :
    sameConfig s t := by
  cases h with
  | writes res ho hrun hbuf => exact hrun.sameConfig
  | closes ho hrun hbuf => exact hrun.sameConfig
  | writeFails hcmd ho hrun hc => exact hrun.sameConfig
  | configures hcmd' m b => simp [hcmd'] at hcmd
  | resets hcmd' => simp [hcmd'] at hcmd
  | _ => exact ⟨rfl, rfl⟩

end
end Sys2Proof.Machine

namespace Sys2Proof.Machine
open Sys2Proof.Spec

/-! ### The invariant, by what the engine is doing -/

section
variable {s t : State} {max : Word64} {stored : List Byte}

theorem ok_of_idle (he : s.engine = .idle) :
    s.ok = true ↔ writerOk s.w = true ∧ readerOk s.r = true ∧ eosOk s.r = true := by
  simp [State.ok, engineOk, he, and_assoc]

theorem ok_of_decompressing (he : s.engine = .decompressing) :
    s.ok = true ↔ writerOk s.w = true ∧ readerOk s.r = true ∧ eosOk s.r = true ∧
      decoderOk Config.maxBlockLen s.dec = true := by
  simp [State.ok, engineOk, he, and_assoc]

theorem ok_of_reading (he : s.engine = .reading max) :
    s.ok = true ↔ writerOk s.w = true ∧ readerOk s.r = true ∧ max ≠ 0 ∧ s.r.fail = none := by
  simp [State.ok, engineOk, he, and_assoc]

theorem ok_of_decodingChunk (he : s.engine = .decodingChunk max stored) :
    s.ok = true ↔ writerOk s.w = true ∧ readerOk s.r = true ∧
      (max ≠ 0 ∧ s.r.fail = none ∧ s.r.pending = [] ∧ stored.length = 4) ∧
      decoderOk Config.chunkMax s.dec = true := by
  simp [State.ok, engineOk, he, and_assoc]

theorem decoderOk_iff {limit : Nat} {d : Decoder} :
    decoderOk limit d = true ↔
      d.pc ≤ d.src.length ∧ d.dst.length ≤ d.len ∧ d.len ≤ limit := by
  simp [decoderOk]

theorem writerOk_of_opened {w : Writer} (h : w.phase = .opened) :
    writerOk w = true ↔ w.buf.length < Config.chunkMax := by
  simp [writerOk, h]

theorem readerOk_of_not_failed {r : Reader} (h : r.fail = none) :
    readerOk r = true ↔ r.pending.length ≤ Config.chunkMax := by
  simp [readerOk, h]

theorem writerCause_of_writerOk {w : Writer} {c : Cause} (h : w.phase = .failed c)
    (hw : writerOk w = true) : writerCause c = true := by
  simp only [writerOk, h, Bool.and_eq_true] at hw
  exact hw.2

theorem readerCause_of_readerOk {r : Reader} {c : Cause} (h : r.fail = some c)
    (hr : readerOk r = true) : readerCause c = true := by
  simp only [readerOk, h, Bool.and_eq_true] at hr
  obtain ⟨-, -, hc⟩ := hr
  exact hc

/-! ### Error entry and delivery meet the invariant (R362, R366, R437) -/

/-- A sink error fails the session of a writer command, whose buffer is lost (R324). -/
theorem writerOk_writerAfterRaise {cmd : Byte} {c : Cause} (hcmd : isWriterCmd cmd = true)
    (hc : writerCause c = true) (w : Writer) : writerOk (writerAfterRaise cmd c w) = true := by
  have hkind : causeKind c ≠ .illegalCommand := by
    obtain rfl | rfl : c = .sinkIo ∨ c = .sinkWriteZero := by simpa [writerCause] using hc
    all_goals decide
  simp [writerAfterRaise, hcmd, hkind, writerOk, hc]

theorem ok_raise_frRead {c : Cause} (hw : writerOk s.w = true) (hc : readerCause c = true) :
    (raise cmdFrRead c s).ok = true := by
  rw [ok_of_idle rfl, raise_w, raise_r, writerAfterRaise_of_not_writer rfl]
  exact ⟨hw, by simp [readerAfterRaise, readerOk, hc], by simp [readerAfterRaise, eosOk]⟩

theorem ok_deliver (hw : writerOk s.w = true) (hr : readerOk s.r = true) :
    (deliver max s).ok = true := by
  rw [ok_of_idle rfl]
  refine ⟨hw, ?_, rfl⟩
  simp only [readerOk, Bool.and_eq_true, decide_eq_true_eq] at hr ⊢
  obtain ⟨hlen, hfail⟩ := hr
  refine ⟨(List.drop_sublist ..).length_le.trans hlen, ?_⟩
  cases hf : s.r.fail with
  | none => simp [deliver, hf]
  | some c =>
    simp only [hf, Bool.and_eq_true, decide_eq_true_eq] at hfail
    simp [deliver, hf, hfail]

theorem ok_acceptData {u : List Byte} (he : s.engine = .reading max) (hs : s.ok = true)
    (hu : u.length ≤ Config.chunkMax) : (acceptData stored u s).ok = true := by
  obtain ⟨hw, -, hmax, hfail⟩ := (ok_of_reading he).mp hs
  obtain h | h := acceptData_cases stored u s <;> rw [h]
  · exact ok_raise_frRead hw rfl
  · exact (ok_of_reading (by exact he)).mpr
      ⟨hw, (readerOk_of_not_failed (by exact hfail)).mpr hu, hmax, hfail⟩

/-! ### Every step keeps the invariant (O55) -/

theorem CommandStep.ok {cmd : Byte} (h : CommandStep cmd s t) (he : s.engine = .idle)
    (hs : s.ok = true) : t.ok = true := by
  obtain ⟨hw, hr, heos⟩ := (ok_of_idle he).mp hs
  cases h with
  | refuses hsame hsame' =>
    rw [ok_of_idle rfl, raise_w, raise_r, hsame, hsame']
    exact ⟨hw, hr, heos⟩
  | startsDecode hlen hh =>
    exact (ok_of_decompressing rfl).mpr ⟨hw, hr, heos, decoderOk_iff.mpr ⟨hh, Nat.zero_le _, hlen⟩⟩
  | writes res ho hrun hbuf =>
    rw [ok_of_idle rfl, complete_w, complete_r, hrun.r]
    exact ⟨(writerOk_of_opened (hrun.phase.trans ho)).mpr (hbuf ((writerOk_of_opened ho).mp hw)),
      hr, heos⟩
  | closes ho hrun hbuf =>
    rw [ok_of_idle rfl, complete_r, State.setW_r, hrun.r]
    exact ⟨decide_eq_true hbuf, hr, heos⟩
  | writeFails hcmd ho hrun hc =>
    rw [ok_of_idle rfl, raise_w, raise_r, hrun.r,
      readerAfterRaise_of_ne (ne_frRead_of_isWriterCmd hcmd)]
    exact ⟨writerOk_writerAfterRaise hcmd hc _, hr, heos⟩
  | writerFailed hcmd hc =>
    rw [ok_of_idle rfl, raise_w, raise_r, readerAfterRaise_of_ne (ne_frRead_of_isWriterCmd hcmd)]
    exact ⟨writerOk_writerAfterRaise hcmd (writerCause_of_writerOk hc hw) _, hr, heos⟩
  | readerFailed hcmd hc =>
    cases hcmd
    exact ok_raise_frRead hw (readerCause_of_readerOk hc hr)
  | delivers hcmd max => exact ok_deliver hw hr
  | startsRead hmax hfail hp => exact (ok_of_reading rfl).mpr ⟨hw, hr, hmax, hfail⟩
  | resetsWriter hcmd => exact (ok_of_idle rfl).mpr ⟨rfl, hr, heos⟩
  | resetsReader hcmd => exact (ok_of_idle rfl).mpr ⟨hw, rfl, rfl⟩
  | resets hcmd => exact (ok_of_idle rfl).mpr ⟨rfl, rfl, rfl⟩
  | _ => exact (ok_of_idle rfl).mpr ⟨hw, hr, heos⟩

/-- The element written keeps the decoder's registers within their limits. -/
theorem decoderOk_advance {limit k : Nat} {dst : List Byte} (hd : decoderOk limit s.dec = true)
    (hpc : s.dec.pc + k ≤ s.dec.src.length) (hlen : dst.length ≤ s.dec.len) :
    decoderOk limit { s.dec with dst := dst, pc := s.dec.pc + k } = true := by
  obtain ⟨-, -, hlimit⟩ := decoderOk_iff.mp hd
  exact decoderOk_iff.mpr ⟨hpc, hlen, hlimit⟩

theorem DecodeStep.ok_decompressing (h : DecodeStep s t) (he : s.engine = .decompressing)
    (hs : s.ok = true) : t.ok = true := by
  obtain ⟨hw, hr, heos, hd⟩ := (ok_of_decompressing he).mp hs
  cases h with
  | element hi hpc hk hdst hlen =>
    exact (ok_of_decompressing (by exact he)).mpr
      ⟨hw, hr, heos, decoderOk_advance hd hpc hlen⟩
  | fails hc =>
    rw [he]
    exact (ok_of_idle rfl).mpr ⟨hw, hr, heos⟩
  | ends he' hlen => exact (ok_of_idle rfl).mpr ⟨hw, hr, heos⟩
  | endsChunk he' hlen => cases he.symm.trans he'

theorem DecodeStep.ok_decodingChunk (h : DecodeStep s t) (he : s.engine = .decodingChunk max stored)
    (hs : s.ok = true) : t.ok = true := by
  obtain ⟨hw, hr, ⟨hmax, hfail, hp, hstored⟩, hd⟩ := (ok_of_decodingChunk he).mp hs
  cases h with
  | element hi hpc hk hdst hlen =>
    exact (ok_of_decodingChunk (by exact he)).mpr
      ⟨hw, hr, ⟨hmax, hfail, hp, hstored⟩, decoderOk_advance hd hpc hlen⟩
  | fails hc =>
    rw [he]
    exact ok_raise_frRead hw (readerCause_of_corrupt hc)
  | ends he' hlen => cases he.symm.trans he'
  | endsChunk he' hlen =>
    cases he.symm.trans he'
    obtain ⟨-, -, hlimit⟩ := decoderOk_iff.mp hd
    exact ok_acceptData rfl ((ok_of_reading rfl).mpr ⟨hw, hr, hmax, hfail⟩) (hlen.trans_le hlimit)

theorem ReadStep.ok (h : ReadStep max s t) (he : s.engine = .reading max) (hs : s.ok = true) :
    t.ok = true := by
  obtain ⟨hw, hr, hmax, hfail⟩ := (ok_of_reading he).mp hs
  cases h with
  | delivers => exact ok_deliver hw hr
  | ends n q hp =>
    have hlen := (readerOk_of_not_failed hfail).mp hr
    exact (ok_of_idle rfl).mpr
      ⟨hw, (readerOk_of_not_failed (by exact hfail)).mpr hlen, decide_eq_true fun _ => hp⟩
  | fails n q hc => exact ok_raise_frRead hw hc
  | skips n q => exact (ok_of_reading he).mpr ⟨hw, hr, hmax, hfail⟩
  | identifies n q => exact (ok_of_reading he).mpr ⟨hw, hr, hmax, hfail⟩
  | accepts stored n q hu =>
    have htook : (took n q s).ok = true := (ok_of_reading he).mpr ⟨hw, hr, hmax, hfail⟩
    exact ok_acceptData he htook hu
  | startsDecode n q hp hlen hh hstored =>
    exact (ok_of_decodingChunk rfl).mpr
      ⟨hw, hr, ⟨hmax, hfail, hp, hstored⟩, decoderOk_iff.mpr ⟨hh, Nat.zero_le _, hlen⟩⟩

end

/-- Settles O55: each kind of step keeps the part of the invariant its engine's activity needs. -/
theorem everyStepKeepsTheInvariant : Obligations.EveryStepKeepsTheInvariant := by
  intro s t hs h
  obtain ⟨-, -, rfl⟩ | ⟨c, rest, he, -, hc⟩ | ⟨he | ⟨max, stored, he⟩, hd⟩ | ⟨max, he, hr⟩ :=
    step_cases h
  · exact hs
  · exact hc.ok he hs
  · exact hd.ok_decompressing he hs
  · exact hd.ok_decodingChunk he hs
  · exact hr.ok he hs

/-! ### Only the resets clear flags and failures (O57) -/

section
variable {s t : State}

theorem isWriterCmd_decodingCmd (e : Engine) : isWriterCmd (decodingCmd e) = false := by
  cases e <;> rfl

theorem DecodeStep.w (h : DecodeStep s t) : t.w = s.w := by
  cases h with
  | fails hc => exact writerAfterRaise_of_not_writer (isWriterCmd_decodingCmd _) ..
  | endsChunk he hlen => exact acceptData_w ..
  | _ => rfl

theorem ReadStep.w {max : Word64} (h : ReadStep max s t) : t.w = s.w := by
  cases h with
  | accepts stored n q hu => exact acceptData_w ..
  | _ => rfl

theorem DecodeStep.sameConfig (h : DecodeStep s t) : sameConfig s t := by
  cases h with
  | endsChunk he hlen => exact ⟨acceptData_cfgMaxDecode .., acceptData_reqIdent ..⟩
  | _ => exact ⟨rfl, rfl⟩

theorem ReadStep.sameConfig {max : Word64} (h : ReadStep max s t) : sameConfig s t := by
  cases h with
  | accepts stored n q hu => exact ⟨acceptData_cfgMaxDecode .., acceptData_reqIdent ..⟩
  | _ => exact ⟨rfl, rfl⟩

/-- In DECOMPRESS the reader session is not touched; in FR_READ it has not failed before. -/
theorem DecodeStep.readerKept (h : DecodeStep s t) (hd : decoding s) (hs : s.ok = true) :
    ReaderKept s.r t.r := by
  obtain he | ⟨max, stored, he⟩ := hd
  · cases h with
    | fails hc => rw [he]; exact .refl _
    | endsChunk he' hlen => cases he.symm.trans he'
    | _ => exact .refl _
  · obtain ⟨-, -, ⟨-, hfail, -, -⟩, -⟩ := (ok_of_decodingChunk he).mp hs
    cases h with
    | fails hc => exact .of_ok (readerAfterRaise_identSeen ..).trans hfail
    | endsChunk he' hlen => exact .of_ok (fun hi => (acceptData_identSeen ..).trans hi) hfail
    | _ => exact .refl _

theorem ReadStep.readerKept {max : Word64} (h : ReadStep max s t) (hfail : s.r.fail = none) :
    ReaderKept s.r t.r := by
  refine .of_ok ?_ hfail
  cases h with
  | fails n q hc => exact fun hi => (readerAfterRaise_identSeen ..).trans hi
  | identifies n q => exact fun _ => rfl
  | accepts stored n q hu => exact fun hi => (acceptData_identSeen ..).trans hi
  | _ => exact id

/-- The host's command has one of the codes, if it has this one. -/
theorem runs_of_mem {codes : List Byte} {c : HostCommand} {rest : List HostCommand}
    (he : s.engine = .idle) (hc : s.commands = c :: rest) (hmem : c.code ∈ codes) : runs codes s :=
  ⟨he, c, rest, hc, hmem⟩

theorem step_keeps_session_flags (hs : s.ok = true) (h : step s = .next t) :
    (¬ runs [0x7D, 0x7F] s → WriterKept s.w t.w) ∧
    (¬ runs [0x7E, 0x7F] s → ReaderKept s.r t.r) ∧ (¬ runs [0x51, 0x7F] s → sameConfig s t) := by
  obtain ⟨-, -, rfl⟩ | ⟨c, rest, he, hq, hc⟩ | ⟨hd, hstep⟩ | ⟨max, he, hr⟩ := step_cases h
  · exact ⟨fun _ => .refl _, fun _ => .refl _, fun _ => ⟨rfl, rfl⟩⟩
  · exact ⟨fun hn => hc.writerKept (hn ∘ runs_of_mem he hq),
      fun hn => hc.readerKept (hn ∘ runs_of_mem he hq),
      fun hn => hc.sameConfig (hn ∘ runs_of_mem he hq)⟩
  · exact ⟨fun _ => hstep.w ▸ .refl _, fun _ => hstep.readerKept hd hs, fun _ => hstep.sameConfig⟩
  · obtain ⟨-, -, -, hfail⟩ := (ok_of_reading he).mp hs
    exact ⟨fun _ => hr.w ▸ .refl _, fun _ => hr.readerKept hfail, fun _ => hr.sameConfig⟩

end

/-- Settles O57: a step that is none of the resets keeps each session's flag and failure. -/
theorem flagsAndFailuresClearOnlyByReset : Obligations.FlagsAndFailuresClearOnlyByReset := by
  intro s t hs h
  obtain ⟨hwriter, hreader, hconfig⟩ := step_keeps_session_flags hs h
  refine ⟨fun hset hclear => ?_, fun hset hclear => ?_, fun c hset hclear => ?_,
    fun c hset hclear => ?_, fun hne => ?_⟩ <;> by_contra hn
  · exact Bool.false_ne_true (hclear.symm.trans ((hwriter hn).1 hset))
  · exact Bool.false_ne_true (hclear.symm.trans ((hreader hn).1 hset))
  · exact hclear ((hwriter hn).2 c hset)
  · exact hclear ((hreader hn).2 c hset)
  · exact hne (hconfig hn)

end Sys2Proof.Machine

namespace Sys2Proof.Machine
open Sys2Proof.Spec

/-! ### `SinkWriteAll` (R79), whatever the sink answers -/

/-- The attempt that ends in a state: done, or failed with the cause. -/
def Attempt.ending : Option Cause → State → Attempt
  | none, s => .done s
  | some c, s => .failed c s

@[simp] theorem Attempt.ending_state (c : Option Cause) (s : State) :
    (Attempt.ending c s).state = s := by
  cases c <;> rfl

/-- The state after the sink has accepted `out`, its coming answers now being `q` (R78). -/
def sent (out : List Byte) (q : SinkScript) (s : State) : State :=
  (s.setSinkScript q).setSink (s.sink ++ out)

theorem sent_nil (s : State) : sent [] s.sinkScript s = s := by
  rw [sent, List.append_nil]; rfl

theorem sent_nil_eq_setSinkScript (q : SinkScript) (s : State) :
    sent [] q s = s.setSinkScript q := by
  rw [sent, List.append_nil]; rfl

theorem sent_sent (a b : List Byte) (q q' : SinkScript) (s : State) :
    sent b q' (sent a q s) = sent (a ++ b) q' s := by
  rw [sent, sent, sent, ← List.append_assoc]; rfl

theorem sinkWriteLoop_nil (fuel : Nat) (s : State) : sinkWriteLoop fuel [] s = .done s := by
  cases fuel <;> rfl

section
variable {fuel a : Nat} {b : Byte} {bs : List Byte} {s : State} {q : SinkScript}

theorem sinkWriteLoop_of_ioFail (h : s.sinkScript.answer (bs.length + 1) = (.ioFail, q)) :
    sinkWriteLoop (fuel + 1) (b :: bs) s = .failed .sinkIo (s.setSinkScript q) := by
  simp [sinkWriteLoop, h]

theorem sinkWriteLoop_of_zero (h : s.sinkScript.answer (bs.length + 1) = (.accept 0, q)) :
    sinkWriteLoop (fuel + 1) (b :: bs) s = .failed .sinkWriteZero (s.setSinkScript q) := by
  simp [sinkWriteLoop, h]

theorem sinkWriteLoop_of_accept (h : s.sinkScript.answer (bs.length + 1) = (.accept (a + 1), q)) :
    sinkWriteLoop (fuel + 1) (b :: bs) s =
      sinkWriteLoop fuel (bs.drop a) (sent ((b :: bs).take (a + 1)) q s) := by
  simp [sinkWriteLoop, h, sent]

end

/-- The loop of `SinkWriteAll` is a run of the sink over the bytes to write. -/
theorem sinkWriteLoop_run {fuel : Nat} {b : List Byte} (hb : b.length ≤ fuel) (s : State) :
    ∃ n c q, SinkRun b.length s.sinkScript n c q ∧
      sinkWriteLoop fuel b s = .ending c (sent (b.take n) q s) := by
  induction fuel generalizing b s with
  | zero =>
    obtain rfl := List.length_eq_zero_iff.mp (Nat.le_zero.mp hb)
    exact ⟨0, none, _, .done _, by rw [sinkWriteLoop_nil, List.take_nil, sent_nil]; rfl⟩
  | succ fuel ih =>
    cases b with
    | nil => exact ⟨0, none, _, .done _, by rw [sinkWriteLoop_nil, List.take_nil, sent_nil]; rfl⟩
    | cons x xs =>
      obtain ⟨answer, q, h⟩ : ∃ a q, s.sinkScript.answer (xs.length + 1) = (a, q) := ⟨_, _, rfl⟩
      match answer with
      | .ioFail =>
        refine ⟨0, some .sinkIo, q, .ioFail h, ?_⟩
        rw [sinkWriteLoop_of_ioFail h, List.take_zero, sent_nil_eq_setSinkScript]; rfl
      | .accept 0 =>
        refine ⟨0, some .sinkWriteZero, q, .zero h, ?_⟩
        rw [sinkWriteLoop_of_zero h, List.take_zero, sent_nil_eq_setSinkScript]; rfl
      | .accept (a + 1) =>
        rw [List.length_cons] at hb
        have hlen : (xs.drop a).length = xs.length - a := List.length_drop
        obtain ⟨n, c, q', hrun, he⟩ := ih (b := xs.drop a) (by omega)
          (sent ((x :: xs).take (a + 1)) q s)
        refine ⟨a + 1 + n, c, q', .short h (hlen ▸ hrun), ?_⟩
        rw [sinkWriteLoop_of_accept h, he, sent_sent, List.take_add (i := a + 1), List.drop_succ_cons]

theorem sinkWriteAll_run (b : List Byte) (s : State) :
    ∃ n c q, SinkRun b.length s.sinkScript n c q ∧
      sinkWriteAll b s = .ending c (sent (b.take n) q s) :=
  sinkWriteLoop_run le_rfl s

/-- A sink that never refuses accepts at least one byte of the next write, and never refuses after it
(R480). -/
theorem answer_of_neverRefuses {q : SinkScript} (hq : neverRefuses q) (k : Nat) :
    ∃ a q', q.answer (k + 1) = (.accept (a + 1), q') ∧ neverRefuses q' := by
  obtain ⟨coming, rest⟩ := q
  obtain ⟨hcoming, hrest⟩ := hq
  cases coming with
  | cons answer coming =>
    obtain ⟨m, rfl⟩ := hcoming answer List.mem_cons_self
    refine ⟨min m k, ⟨coming, rest⟩, ?_, fun a ha => hcoming a (List.mem_cons_of_mem _ ha), hrest⟩
    simp [SinkScript.answer, clipAnswer]
  | nil =>
    cases rest with
    | accepts => exact ⟨k, ⟨[], .accepts⟩, rfl, hcoming, hrest⟩
    | oracle n i =>
      obtain ⟨m, hm⟩ := hrest n i rfl i le_rfl
      refine ⟨min m k, ⟨[], .oracle n (i + 1)⟩, ?_, hcoming, fun n' i' h j hj => ?_⟩
      · simp [SinkScript.answer, clipAnswer, hm]
      · cases h
        exact hrest n i rfl j (Nat.le_of_succ_le hj)

end Sys2Proof.Machine

namespace Sys2Proof.Spec.SinkRun
open Sys2Proof.Machine

variable {k n : Nat} {c : Option Cause} {q q' : SinkScript}

/-- A run of the sink accepts no more than there is to write, and all of it exactly when it does not
fail. -/
theorem accepted (h : SinkRun k q n c q') : n ≤ k ∧ (c = none ↔ n = k) := by
  induction h with
  | done q => simp
  | ioFail h => simp
  | zero h => simp
  | short h hrun ih =>
    have hle := SinkScript.answer_le h
    obtain ⟨hn, hiff⟩ := ih
    exact ⟨by omega, hiff.trans (by omega)⟩

/-- Only the sink's own errors end a run early (R79). -/
theorem cause (h : SinkRun k q n c q') : ∀ e ∈ c, e = .sinkIo ∨ e = .sinkWriteZero := by
  induction h with
  | done q => simp
  | ioFail h => simp
  | zero h => simp
  | short h hrun ih => exact ih

/-- A sink that never refuses takes all the bytes, and never refuses after them (R480). -/
theorem of_neverRefuses (h : SinkRun k q n c q') (hq : neverRefuses q) :
    c = none ∧ neverRefuses q' := by
  induction h with
  | done q => exact ⟨rfl, hq⟩
  | @ioFail k q q' h =>
    obtain ⟨a, q₁, ha, -⟩ := answer_of_neverRefuses hq k
    cases h.symm.trans ha
  | @zero k q q' h =>
    obtain ⟨a, q₁, ha, -⟩ := answer_of_neverRefuses hq k
    cases h.symm.trans ha
  | @short k a n c q q' q'' h hrun ih =>
    obtain ⟨a, q₁, ha, hq₁⟩ := answer_of_neverRefuses hq k
    cases h.symm.trans ha
    exact ih hq₁

end Sys2Proof.Spec.SinkRun

namespace Sys2Proof.Machine
open Sys2Proof.Spec

/-! ### EMIT_CHUNK (R313, R314), whatever the sink answers -/

/-- The identifier where the session has sent none (R313). -/
def identDue (w : Writer) : List Byte := if w.identSent then [] else identBytes

theorem identDue_of_sent {w : Writer} (h : w.identSent = true) : identDue w = [] := if_pos h

theorem identDue_of_not_sent {w : Writer} (h : w.identSent = false) : identDue w = identBytes := by
  simp [identDue, h]

theorem identChunk_eq : identChunk = identBytes := by decide

/-- The data chunk in either form (R115, R319). -/
theorem dataChunk_eq (p : Config.FallbackChoice) (u z : List Byte) :
    dataChunk p u z = if sendsUncompressed p u.length z.length then dataChunkBytes 0x01 u u
      else dataChunkBytes 0x00 u z := rfl

/-- The compressed form goes out only where it is smaller (R317). -/
theorem lt_of_not_sendsUncompressed {p : Config.FallbackChoice} {raw comp : Nat}
    (h : ¬ sendsUncompressed p raw comp = true) : comp < raw := by
  cases p with
  | ref =>
    rw [sendsUncompressed, decide_eq_true_eq, Nat.not_le] at h
    exact h.trans_le (Nat.sub_le ..)
  | other n =>
    rw [sendsUncompressed, Bool.or_eq_true, not_or, decide_eq_true_eq, Nat.not_le] at h
    exact h.1

/-- The data chunk is of a form the spec allows (R314, R317, R318). -/
theorem dataChunk_form (p : Policy) (enc : EncoderRegs) (u : List Byte) :
    ∃ ty data, chunkForm p enc u ty data ∧
      dataChunk p.fallback u (compressed p.encoder u enc).1 = dataChunkBytes ty u data := by
  rw [dataChunk_eq]
  split
  · next h =>
    refine ⟨0x01, u, ⟨.inl ⟨rfl, rfl⟩, fun hp => ?_⟩, rfl⟩
    rw [hp, sendsUncompressed, decide_eq_true_eq] at h
    exact ⟨fun hty => absurd hty (by decide), fun hlt => absurd h (Nat.not_le.mpr hlt)⟩
  · next h =>
    refine ⟨0x00, _, ⟨.inr ⟨rfl, rfl, lt_of_not_sendsUncompressed h⟩, fun hp => ?_⟩, rfl⟩
    rw [hp, sendsUncompressed, decide_eq_true_eq, Nat.not_le] at h
    exact ⟨fun _ => h, fun _ => rfl⟩

/-- The identifier's write fails, or the identifier is out and marked as sent. -/
theorem sendIdent_cases (s : State) :
    (∃ n c q, s.w.identSent = false ∧ SinkRun identBytes.length s.sinkScript n (some c) q ∧
      sendIdent s = .failed c (sent (identBytes.take n) q s)) ∨
    ∃ q, SinkRun (identDue s.w).length s.sinkScript (identDue s.w).length none q ∧
      sendIdent s = .done ((sent (identDue s.w) q s).setW { s.w with identSent := true }) := by
  cases hi : s.w.identSent with
  | true =>
    have hw : { s.w with identSent := true } = s.w := by rw [← hi]
    refine .inr ⟨s.sinkScript, identDue_of_sent hi ▸ .done _, ?_⟩
    rw [sendIdent, if_pos hi, identDue_of_sent hi, sent_nil, hw]
    rfl
  | false =>
    obtain ⟨n, c, q, hrun, he⟩ := sinkWriteAll_run identBytes s
    cases c with
    | some c =>
      refine .inl ⟨n, c, q, rfl, hrun, ?_⟩
      simp [sendIdent, hi, identChunk_eq, he, Attempt.ending]
    | none =>
      obtain rfl := hrun.accepted.2.mp rfl
      rw [List.take_length] at he
      refine .inr ⟨q, by rwa [identDue_of_not_sent hi], ?_⟩
      simp [sendIdent, hi, identChunk_eq, he, Attempt.ending, identDue_of_not_sent hi, sent]

/-- The encoder and the checksum register after the data chunk of `u` is made (R314 to R316). -/
def chunkMade (u : List Byte) (s : State) : State :=
  (setCrcOf u s).setEnc (compressed s.policy.encoder u s.enc).2

theorem sendData_run (u : List Byte) (s : State) :
    ∃ ty data n c q, chunkForm s.policy s.enc u ty data ∧
      SinkRun (dataChunkBytes ty u data).length s.sinkScript n c q ∧
      sendData u s = .ending c (sent ((dataChunkBytes ty u data).take n) q (chunkMade u s)) := by
  obtain ⟨ty, data, hform, hchunk⟩ := dataChunk_form s.policy s.enc u
  obtain ⟨n, c, q, hrun, he⟩ := sinkWriteAll_run (dataChunkBytes ty u data) (chunkMade u s)
  exact ⟨ty, data, n, c, q, hform, hrun, by rw [sendData, hchunk]; exact he⟩

/-- The state after the chunk of `u` has gone out, whole or in part, the sink having accepted `out` and
the identifier being sent (R314). -/
def chunkSent (u out : List Byte) (q : SinkScript) (s : State) : State :=
  sent out q (chunkMade u (s.setW { s.w with identSent := true, buf := [] }))

/-- How EMIT_CHUNK of the bytes `u` may end from `s` (R314, R320). -/
inductive Emission (u : List Byte) (s : State) : Attempt → Prop
  | identFails {n : Nat} {c : Cause} {q : SinkScript} (hi : s.w.identSent = false)
      (hident : SinkRun identBytes.length s.sinkScript n (some c) q) :
      Emission u s (.failed c (sent (identBytes.take n) q (s.setW { s.w with buf := [] })))
  | data {ty : Byte} {data : List Byte} {n : Nat} {c : Option Cause} {q q' : SinkScript}
      (hform : chunkForm s.policy s.enc u ty data)
      (hident : SinkRun (identDue s.w).length s.sinkScript (identDue s.w).length none q)
      (hdata : SinkRun (dataChunkBytes ty u data).length q n c q') :
      Emission u s (.ending c
        (chunkSent u (identDue s.w ++ (dataChunkBytes ty u data).take n) q' s))

section
variable {s s' : State} {c : Cause}

theorem emitChunk_of_sendIdent_done (h : sendIdent (s.setW { s.w with buf := [] }) = .done s') :
    emitChunk s = sendData s.w.buf s' := by
  simp only [emitChunk, h]

theorem emitChunk_of_sendIdent_failed
    (h : sendIdent (s.setW { s.w with buf := [] }) = .failed c s') :
    emitChunk s = .failed c s' := by
  simp only [emitChunk, h]

end

theorem emitChunk_emission (u : List Byte) (s : State) :
    Emission u s (emitChunk (s.setW { s.w with buf := u })) := by
  obtain ⟨n, c, q, hi, hident, he⟩ | ⟨q, hident, he⟩ :=
    sendIdent_cases (s.setW { s.w with buf := [] })
  · rw [emitChunk_of_sendIdent_failed (s := s.setW { s.w with buf := u }) he]
    exact .identFails hi hident
  · rw [emitChunk_of_sendIdent_done (s := s.setW { s.w with buf := u }) he]
    obtain ⟨ty, data, n, c, q', hform, hdata, hsend⟩ := sendData_run u
      ((sent (identDue s.w) q (s.setW { s.w with buf := [] })).setW
        { s.w with buf := [], identSent := true })
    have hout := sent_sent (identDue s.w) ((dataChunkBytes ty u data).take n) q q'
      (chunkMade u (s.setW { s.w with identSent := true, buf := [] }))
    exact (hsend.trans (congrArg _ hout)).symm ▸ .data hform hident hdata

end Sys2Proof.Machine

namespace Sys2Proof.Machine
open Sys2Proof.Spec

/-! ### What a writer command puts out (R313, R320, R324) -/

/-- From `s` the attempt has added bytes to the sink; the identifier is marked as sent exactly when it
was before or the bytes begin with it; and a sink that never refuses has not failed it. -/
structure Attempt.Outputs (s : State) (added : List Byte) (a : Attempt) : Prop where
  sink : a.state.sink = s.sink ++ added
  identSent : a.state.w.identSent = true ↔ s.w.identSent = true ∨ identBytes <+: added
  accepted : neverRefuses s.sinkScript → a = .done a.state ∧ neverRefuses a.state.sinkScript

theorem not_identBytes_prefix {b : List Byte} (h : b.length < identBytes.length) :
    ¬ identBytes <+: b :=
  fun hp => Nat.not_le.mpr h hp.length_le

theorem outputs_done (s : State) : (Attempt.done s).Outputs s [] :=
  ⟨(List.append_nil _).symm, by simp [Attempt.state, identBytes], fun hq => ⟨rfl, hq⟩⟩

section
variable {u : List Byte} {s t : State} {a : Attempt}

/-- A chunk that is out whole has the identifier before it, if this is the session's first. -/
theorem Emission.outputs (h : Emission u s a) :
    ∃ added, a.Outputs s added ∧ ∀ t, a = .done t → t.w.identSent = true := by
  cases h with
  | @identFails n c q hi hident =>
    refine ⟨identBytes.take n, ⟨rfl, ?_, fun hq => ?_⟩, fun t ht => by cases ht⟩
    · obtain ⟨hle, hiff⟩ := hident.accepted
      have hne : n ≠ identBytes.length := fun hn => nomatch hiff.mpr hn
      have hlen : (identBytes.take n).length < identBytes.length := by
        rw [List.length_take_of_le hle]; omega
      exact ⟨fun ht => absurd (hi.symm.trans ht) Bool.false_ne_true,
        fun ht => ht.elim id fun hp => absurd hp (not_identBytes_prefix hlen)⟩
    · cases (hident.of_neverRefuses hq).1
  | @data ty data n c q q' hform hident hdata =>
    refine ⟨identDue s.w ++ (dataChunkBytes ty u data).take n, ⟨?_, ?_, fun hq => ?_⟩,
      fun t ht => ?_⟩
    · rw [Attempt.ending_state]; rfl
    · rw [Attempt.ending_state]
      refine ⟨fun _ => ?_, fun _ => rfl⟩
      cases hi : s.w.identSent with
      | true => exact .inl rfl
      | false => exact .inr (identDue_of_not_sent hi ▸ List.prefix_append ..)
    · obtain ⟨rfl, hq'⟩ := hdata.of_neverRefuses (hident.of_neverRefuses hq).2
      exact ⟨rfl, hq'⟩
    · cases c with
      | none => cases ht; rfl
      | some c => cases ht

/-- What goes out after a chunk follows its bytes. -/
theorem Attempt.Outputs.trans {added added' : List Byte}
    (h : (Attempt.done t).Outputs s added) (hi : t.w.identSent = true)
    (h' : a.Outputs t added') : a.Outputs s (added ++ added') := by
  refine ⟨by rw [h'.sink, ← List.append_assoc, ← h.sink]; rfl, ?_, fun hq => ?_⟩
  · have hsent := h.identSent.mp hi
    exact ⟨fun _ => hsent.imp_right fun hp => hp.trans (List.prefix_append ..),
      fun _ => h'.identSent.mpr (.inl hi)⟩
  · exact h'.accepted (h.accepted hq).2

theorem flushBuffer_outputs (s : State) : ∃ added, (flushBuffer s).Outputs s added := by
  unfold flushBuffer
  split
  · exact (emitChunk_emission s.w.buf s).outputs.imp fun _ h => h.1
  · exact ⟨[], outputs_done s⟩

theorem writeBytes_outputs (src : List Byte) (s : State) :
    ∃ added, (writeBytes src s).Outputs s added := by
  induction src generalizing s with
  | nil => exact ⟨[], outputs_done s⟩
  | cons b rest ih =>
    simp only [writeBytes]
    split
    · obtain ⟨added, ⟨hsink, hident, hq⟩, hsent⟩ :=
        (emitChunk_emission (s.w.buf ++ [b]) s).outputs
      split
      · next t he =>
        rw [he] at hsink hident hq
        obtain ⟨added', hrest⟩ := ih t
        exact ⟨added ++ added', Attempt.Outputs.trans ⟨hsink, hident, hq⟩ (hsent t he) hrest⟩
      · next he =>
        rw [he] at hsink hident hq
        exact ⟨added, hsink, hident, hq⟩
    · obtain ⟨added, hsink, hident, hq⟩ := ih (s.setW { s.w with buf := s.w.buf ++ [b] })
      exact ⟨added, hsink, hident, hq⟩

/-! ### The writer commands in an open session (R311, R321, R322) -/

/-- The attempt, leaving the session in a phase where it is done. -/
def Attempt.withPhase (phase : WPhase) : Attempt → Attempt
  | .done s => .done (s.setW { s.w with phase := phase })
  | .failed c s => .failed c s

theorem closeWriter_eq (a : Attempt) : closeWriter a = a.withPhase .closed := by
  cases a <;> rfl

/-- A writer command's own steps leave the phase as it was. -/
theorem Attempt.Runs.withPhase_eq {p : List Byte → Prop} (h : a.Runs s p) :
    a.withPhase s.w.phase = a := by
  cases h with
  | done hrun _ => rw [← hrun.phase]; rfl
  | failed _ _ => rfl

theorem Attempt.Outputs.withPhase {added : List Byte} (h : a.Outputs s added) (phase : WPhase) :
    (a.withPhase phase).Outputs s added := by
  obtain ⟨hsink, hident, hq⟩ := h
  cases a with
  | done t => exact ⟨hsink, hident, fun h => ⟨rfl, (hq h).2⟩⟩
  | failed c t => exact ⟨hsink, hident, fun h => nomatch (hq h).1⟩

end

section
variable {s : State} (ho : s.w.phase = .opened)
include ho

theorem writerEntry_of_opened (cmd : Byte) (body : State → State) :
    writerEntry cmd s body = .next (body s) := by
  simp only [writerEntry, ho]

theorem exec_fwWrite_of_opened (src : List Byte) :
    exec (.fwWrite src) s = .next (endWriter cmdFwWrite (.count (BitVec.ofNat 64 src.length))
      ((writeBytes src s).withPhase .opened)) := by
  rw [← ho, (writeBytes_runs src (p := False) False.elim).withPhase_eq]
  exact writerEntry_of_opened ho _ fun s => endWriter _ _ (writeBytes src s)

theorem exec_fwFlush_of_opened : exec .fwFlush s =
    .next (endWriter cmdFwFlush .none ((flushBuffer s).withPhase .opened)) := by
  rw [← ho, (flushBuffer_runs s).withPhase_eq]
  exact writerEntry_of_opened ho _ fun s => endWriter _ _ (flushBuffer s)

theorem exec_fwClose_of_opened : exec .fwClose s =
    .next (endWriter cmdFwClose .none ((flushBuffer s).withPhase .closed)) := by
  rw [← closeWriter_eq]
  exact writerEntry_of_opened ho _ fun s => endWriter _ _ (closeWriter (flushBuffer s))

end

/-! ### A writer command completes or fails its session (O33) -/

theorem writerAfterRaise_of_sinkError {cmd : Byte} {c : Cause} (hcmd : isWriterCmd cmd = true)
    (hc : c = .sinkIo ∨ c = .sinkWriteZero) (w : Writer) :
    writerAfterRaise cmd c w = { w with phase := .failed c, buf := [] } := by
  have hkind : causeKind c ≠ .illegalCommand := by
    obtain rfl | rfl := hc <;> decide
  exact if_pos ⟨hcmd, hkind⟩

/-- What writer command `cmd` may not touch in an open session is as it was (R436). -/
theorem WriterRun.outside {s t : State} (h : WriterRun s t) :
    t.r = s.r ∧ Spec.sameConfig s t ∧ t.commands = s.commands ∧ t.source = s.source ∧
      t.policy = s.policy := by
  rw [h.frame]
  exact ⟨rfl, ⟨rfl, rfl⟩, rfl, rfl, rfl⟩

theorem completedOk_of_responses {cmd : Byte} {res : Results} {s t : State}
    (h : t.responses = s.responses) : completedOk cmd res s (complete cmd res t) := by
  have := completedOk_complete cmd res t
  rwa [completedOk, h] at this

theorem completedError_of_responses {cmd : Byte} {c : Cause} {s t : State}
    (h : t.responses = s.responses) : completedError cmd c s (raise cmd c t) := by
  have := completedError_raise cmd c t
  rwa [completedError, h] at this

/-- From `s` writer command `cmd` has ended in `t`, `added` being what it has added to the sink. -/
def CompletesOrFails (cmd : Byte) (s t : State) (added : List Byte) : Prop :=
  t.sink = s.sink ++ added ∧
  (((∃ res, completedOk cmd res s t) ∧ ∀ c, t.w.phase ≠ .failed c) ∨
    ∃ c, (c = .sinkIo ∨ c = .sinkWriteZero) ∧ completedError cmd c s t ∧
      t.w.phase = .failed c ∧ t.w.buf = []) ∧
  (t.w.identSent = true ↔ s.w.identSent = true ∨ identBytes <+: added) ∧
  (neverRefuses s.sinkScript → ∃ res, completedOk cmd res s t) ∧
  t.r = s.r ∧ sameConfig s t ∧ t.commands = s.commands ∧ t.source = s.source ∧
  t.policy = s.policy

theorem endWriter_completesOrFails {cmd : Byte} {res : Results} {s : State} {a : Attempt}
    {p : List Byte → Prop} {added : List Byte} {phase : WPhase} (hcmd : isWriterCmd cmd = true)
    (hphase : ∀ c, phase ≠ .failed c) (hrun : a.Runs s p) (hout : a.Outputs s added) :
    CompletesOrFails cmd s (endWriter cmd res (a.withPhase phase)) added := by
  obtain ⟨hsink, hident, hq⟩ := hout
  cases hrun with
  | @done t hrun hbuf =>
    have hok : completedOk cmd res s (complete cmd res (t.setW { t.w with phase := phase })) :=
      completedOk_of_responses hrun.responses
    exact ⟨hsink, .inl ⟨⟨res, hok⟩, hphase⟩, hident, fun _ => ⟨res, hok⟩, hrun.outside⟩
  | @failed c t hrun hc =>
    have hc : c = .sinkIo ∨ c = .sinkWriteZero := of_decide_eq_true hc
    have hw : (raise cmd c t).w = { t.w with phase := .failed c, buf := [] } :=
      writerAfterRaise_of_sinkError hcmd hc t.w
    have hr : (raise cmd c t).r = t.r := readerAfterRaise_of_ne (ne_frRead_of_isWriterCmd hcmd) ..
    have hrefuses : ¬ neverRefuses s.sinkScript := fun h => nomatch (hq h).1
    obtain ⟨hrun_r, houtside⟩ := hrun.outside
    exact ⟨hsink, .inr ⟨c, hc, completedError_of_responses hrun.responses,
        congrArg Writer.phase hw, congrArg Writer.buf hw⟩,
      (Eq.congr_left (congrArg Writer.identSent hw)).trans hident,
      (absurd · hrefuses), hr.trans hrun_r, houtside⟩

/-- Settles O33: the chunks that go out are followed one after the other. -/
theorem writerCommandCompletesOrFailsItsSession :
    Obligations.WriterCommandCompletesOrFailsItsSession := by
  intro src s ho p hp
  obtain rfl | rfl | rfl :
      p = (0x30, .fwWrite src) ∨ p = (0x31, .fwFlush) ∨ p = (0x32, .fwClose) := by
    simpa using hp
  · obtain ⟨added, hout⟩ := writeBytes_outputs src s
    exact ⟨_, added, exec_fwWrite_of_opened ho src,
      endWriter_completesOrFails rfl nofun (writeBytes_runs src False.elim) hout⟩
  · obtain ⟨added, hout⟩ := flushBuffer_outputs s
    exact ⟨_, added, exec_fwFlush_of_opened ho,
      endWriter_completesOrFails rfl nofun (flushBuffer_runs s) hout⟩
  · obtain ⟨added, hout⟩ := flushBuffer_outputs s
    exact ⟨_, added, exec_fwClose_of_opened ho,
      endWriter_completesOrFails rfl nofun (flushBuffer_runs s) hout⟩

end Sys2Proof.Machine

namespace Sys2Proof.Machine
open Sys2Proof.Spec

/-! ### Which commands touch the sink, the source and the sessions (O60) -/

theorem WriterRun.source {s t : State} (h : WriterRun s t) : t.source = s.source := by
  rw [h.frame]

section
variable {cmd : Byte} {s t : State}

theorem CommandStep.source (h : CommandStep cmd s t) : t.source = s.source := by
  cases h with
  | writes res ho hrun hbuf => exact hrun.source
  | closes ho hrun hbuf => exact hrun.source
  | writeFails hcmd ho hrun hc => exact hrun.source
  | _ => rfl

theorem CommandStep.opened_of_sink_ne (h : CommandStep cmd s t) (hne : t.sink ≠ s.sink) :
    s.w.phase = .opened := by
  cases h with
  | writes res ho hrun hbuf => exact ho
  | closes ho hrun hbuf => exact ho
  | writeFails hcmd ho hrun hc => exact ho
  | _ => exact absurd rfl hne

theorem CommandStep.r_eq (h : CommandStep cmd s t) (hcmd : cmd ∉ [(0x40 : Byte), 0x7E, 0x7F]) :
    t.r = s.r := by
  cases h with
  | refuses hw hr => exact hr
  | writes res ho hrun hbuf => exact hrun.r
  | closes ho hrun hbuf => exact hrun.r
  | writeFails hw ho hrun hc =>
    rw [raise_r, hrun.r, readerAfterRaise_of_ne (ne_frRead_of_isWriterCmd hw)]
  | writerFailed hw hc => rw [raise_r, readerAfterRaise_of_ne (ne_frRead_of_isWriterCmd hw)]
  | readerFailed hr hc => simp [hr, cmdFrRead] at hcmd
  | delivers hr max => simp [hr, cmdFrRead] at hcmd
  | resetsReader hr => simp [hr] at hcmd
  | resets hr => simp [hr] at hcmd
  | _ => rfl

/-- A command is encoded under the code it was decoded from (R117). -/
theorem encode_of_decodeCommand {c : HostCommand} {i : Instr} (hi : decodeCommand c = .ok i) :
    ∃ c', encode i = .command c' ∧ c'.code = c.code := by
  unfold decodeCommand at hi
  iterate 14
    obtain ⟨hcode, rfl⟩ | hi := ok_of_ite hi
    · exact ⟨_, rfl, hcode.symm⟩
  cases hi

/-- A command that is none of the writer's leaves the sink alone, and the writer session too unless it
is one of its resets (R83, R403). -/
theorem exec_keeps_sink_and_writer {i : Instr} {c : HostCommand} (hi : encode i = .command c)
    (hcode : c.code ∉ [(0x30 : Byte), 0x31, 0x32]) (h : exec i s = .next t) :
    t.sink = s.sink ∧ (c.code ∉ [(0x7D : Byte), 0x7F] → t.w = s.w) := by
  cases i with
  | fwWrite _ | fwFlush | fwClose => cases hi; simp at hcode
  | reset | resetWriter => cases hi; cases h; exact ⟨rfl, fun hn => absurd (by simp) hn⟩
  | resetReader | varintEncode _ => cases h; exact ⟨rfl, fun _ => rfl⟩
  | varintDecode _ | maxCompressLen _ | compress _ | decompress _ | readReg _ =>
    simp only [exec, execVarintDecode, execMaxCompressLen, execCompress, execDecompress,
      execReadReg] at h
    split at h <;> cases h <;> exact ⟨rfl, fun _ => rfl⟩
  | writeReg r v =>
    simp only [exec, execWriteReg] at h
    split at h <;> cases h
    · next he =>
      obtain ⟨m, b, rfl⟩ := writeRegister_ok he
      exact ⟨rfl, fun _ => rfl⟩
    · exact ⟨rfl, fun _ => rfl⟩
  | frRead max =>
    simp only [exec, execFrRead, frLoop] at h
    split at h
    · cases h; exact ⟨rfl, fun _ => rfl⟩
    · split at h
      · cases h; exact ⟨rfl, fun _ => rfl⟩
      · split at h <;> cases h <;> exact ⟨rfl, fun _ => rfl⟩
  | _ => cases hi

/-- A writer command in an open session only adds to the sink (R83). -/
theorem exec_writer_sink {i : Instr} {c : HostCommand} (hi : encode i = .command c)
    (hcode : c.code ∈ [(0x30 : Byte), 0x31, 0x32]) (ho : s.w.phase = .opened)
    (h : exec i s = .next t) : s.sink <+: t.sink := by
  have hspec : ∃ src, (c.code, i) ∈
      [((0x30 : Byte), Instr.fwWrite src), (0x31, .fwFlush), (0x32, .fwClose)] := by
    cases i with
    | fwWrite src => cases hi; exact ⟨src, by simp⟩
    | fwFlush | fwClose => cases hi; exact ⟨[], by simp⟩
    | _ => cases hi <;> simp at hcode
  obtain ⟨src, hmem⟩ := hspec
  obtain ⟨t', added, he, hsink, -⟩ := writerCommandCompletesOrFailsItsSession src s ho _ hmem
  cases he.symm.trans h
  exact hsink ▸ List.prefix_append ..

/-- The step of a host command and the channel and session of the writer. -/
theorem step_command_sink_and_writer {c : HostCommand} {rest : List HostCommand}
    (hs : s.engine = .idle) (hq : s.commands = c :: rest) (h : step s = .next t) :
    s.sink <+: t.sink ∧ (c.code ∉ [(0x30 : Byte), 0x31, 0x32] → t.sink = s.sink ∧
      (c.code ∉ [(0x7D : Byte), 0x7F] → t.w = s.w)) := by
  have hstep := commandStep_of_step hs hq h
  cases hi : decodeCommand c with
  | ok i =>
    rw [step_of_command hs hq hi] at h
    obtain ⟨c', hc', hcode⟩ := encode_of_decodeCommand hi
    rw [← hcode] at hstep ⊢
    have hkeeps := fun hn => exec_keeps_sink_and_writer hc' hn h
    refine ⟨?_, hkeeps⟩
    by_cases hsink : t.sink = s.sink
    · rw [hsink]
    · have hw : c'.code ∈ [(0x30 : Byte), 0x31, 0x32] := by_contra fun hn => hsink (hkeeps hn).1
      exact exec_writer_sink (s := s.setCommands rest) hc' hw (hstep.opened_of_sink_ne hsink) h
  | error e =>
    obtain ⟨rfl, -⟩ := decodeCommand_error hi
    simp only [step, fetch, hs, fetchCommand, hq, hi] at h
    cases h
    exact ⟨List.prefix_rfl, fun _ => ⟨rfl, fun _ => writerAfterRaise_of_illegal rfl ..⟩⟩

theorem acceptData_sink (stored u : List Byte) (s : State) :
    (acceptData stored u s).sink = s.sink := by
  obtain h | h := acceptData_cases stored u s <;> rw [h] <;> rfl

theorem acceptData_source (stored u : List Byte) (s : State) :
    (acceptData stored u s).source = s.source := by
  obtain h | h := acceptData_cases stored u s <;> rw [h] <;> rfl

theorem DecodeStep.sink (h : DecodeStep s t) : t.sink = s.sink := by
  cases h with
  | endsChunk he hlen => exact acceptData_sink ..
  | _ => rfl

theorem DecodeStep.source (h : DecodeStep s t) : t.source = s.source := by
  cases h with
  | endsChunk he hlen => exact acceptData_source ..
  | _ => rfl

theorem DecodeStep.r_of_decompressing (h : DecodeStep s t) (hs : s.engine = .decompressing) :
    t.r = s.r := by
  cases h with
  | fails hc => rw [hs]; rfl
  | endsChunk he hlen => cases hs.symm.trans he
  | _ => rfl

theorem ReadStep.sink {max : Word64} (h : ReadStep max s t) : t.sink = s.sink := by
  cases h with
  | accepts stored n q hu => exact acceptData_sink ..
  | _ => rfl

end

/-- Settles O60: each kind of step is held to the channels and the session it may change. -/
theorem channelsAndSessionsBelongToTheirCommands :
    Obligations.ChannelsAndSessionsBelongToTheirCommands := by
  intro s t _ h
  obtain ⟨-, -, rfl⟩ | ⟨c, rest, he, hq, hc⟩ | ⟨hd, hstep⟩ | ⟨max, he, hr⟩ := step_cases h
  · exact ⟨List.prefix_rfl, (absurd rfl ·), (absurd rfl ·), (absurd rfl ·), (absurd rfl ·)⟩
  · obtain ⟨hprefix, hkeeps⟩ := step_command_sink_and_writer he hq h
    refine ⟨hprefix, fun hne => ⟨?_, hc.opened_of_sink_ne hne⟩, fun hne => ?_,
      fun hne => .inr (.inr ?_), fun hne => absurd hc.source hne⟩ <;>
      refine runs_of_mem he hq (by_contra fun hn => hne ?_)
    · exact (hkeeps hn).1
    · exact (hkeeps fun hw => hn (List.mem_append_left [0x7D, 0x7F] hw)).2
        fun hw => hn (List.mem_append_right [0x30, 0x31, 0x32] hw)
    · exact hc.r_eq hn
  · refine ⟨hstep.sink ▸ List.prefix_rfl, (absurd hstep.sink ·), (absurd hstep.w ·), fun hne => ?_,
      (absurd hstep.source ·)⟩
    obtain he | hchunk := hd
    · exact absurd (hstep.r_of_decompressing he) hne
    · exact .inr (.inl hchunk)
  · exact ⟨hr.sink ▸ List.prefix_rfl, (absurd hr.sink ·), (absurd hr.w ·), fun _ => .inl ⟨max, he⟩,
      fun _ => ⟨max, he⟩⟩

end Sys2Proof.Machine

namespace Sys2Proof.Machine
open Sys2Proof.Spec

/-! ### One chunk emitted by a writer command (O28, O30) -/

section
variable (cmd : Byte) (res : Results) (phase : WPhase) (c : Cause) (s : State)

@[simp] theorem endWriter_withPhase_done :
    endWriter cmd res ((Attempt.done s).withPhase phase) =
      complete cmd res (s.setW { s.w with phase := phase }) := rfl

@[simp] theorem endWriter_withPhase_failed :
    endWriter cmd res ((Attempt.failed c s).withPhase phase) = raise cmd c s := rfl

end

section
variable (u out : List Byte) (q : SinkScript) (s : State)

@[simp] theorem sent_sink : (sent out q s).sink = s.sink ++ out := rfl
@[simp] theorem sent_sinkScript : (sent out q s).sinkScript = q := rfl
@[simp] theorem sent_w : (sent out q s).w = s.w := rfl
@[simp] theorem sent_enc : (sent out q s).enc = s.enc := rfl
@[simp] theorem sent_crc : (sent out q s).crc = s.crc := rfl
@[simp] theorem chunkSent_sink : (chunkSent u out q s).sink = s.sink ++ out := rfl
@[simp] theorem chunkSent_sinkScript : (chunkSent u out q s).sinkScript = q := rfl
@[simp] theorem chunkSent_w :
    (chunkSent u out q s).w = { s.w with identSent := true, buf := [] } := rfl
@[simp] theorem chunkSent_dec : (chunkSent u out q s).dec = s.dec := rfl

end

/-- Error entry of a writer command changes nothing outside the writer and the decoder (R436, R437). -/
theorem raise_outside {cmd : Byte} {c : Cause} {s t : State} (hcmd : isWriterCmd cmd = true)
    (h : WriterRun s t) :
    (raise cmd c t).r = s.r ∧ sameConfig s (raise cmd c t) ∧ (raise cmd c t).commands = s.commands ∧
      (raise cmd c t).source = s.source ∧ (raise cmd c t).policy = s.policy := by
  obtain ⟨hr, houtside⟩ := h.outside
  exact ⟨(readerAfterRaise_of_ne (ne_frRead_of_isWriterCmd hcmd) ..).trans hr, houtside⟩

/-- The emission of `u`, ended as writer command `cmd` ends it, is what R314 and R324 say. -/
theorem emitChunk_emitted {cmd : Byte} (hcmd : isWriterCmd cmd = true) (res : Results)
    (u : List Byte) (phase : WPhase) (s : State) :
    emitted cmd res u phase s
      (endWriter cmd res ((emitChunk (s.setW { s.w with buf := u })).withPhase phase)) := by
  have hrun := (WriterRun.setBuf s u).runs (emitChunk_runs (s.setW { s.w with buf := u }))
  have hemit := emitChunk_emission u s
  generalize emitChunk (s.setW { s.w with buf := u }) = a at hrun hemit
  cases hemit with
  | @identFails n c q hi hident =>
    obtain ⟨ty, data, hform, -⟩ := dataChunk_form s.policy s.enc u
    cases hrun with
    | failed hrun _ =>
    obtain ⟨hr, hcfg, hcommands, hsource, hpolicy⟩ := raise_outside (c := c) hcmd hrun
    refine ⟨ty, data, n, some c, q, hform, ?_, hr, hcfg, hcommands, hsource, hpolicy,
      completedError_of_responses rfl, ?_, rfl, ?_, ?_⟩
    · simpa [hi] using hident
    · simp [hi]
    · simp [hi, writerAfterRaise_of_sinkError hcmd (hident.cause c rfl)]
    · simp [sameEncoder]
  | @data ty data n c q q' hform hident hdata =>
    cases c with
    | some c =>
      cases hrun with
      | failed hrun _ =>
      obtain ⟨hr, hcfg, hcommands, hsource, hpolicy⟩ := raise_outside (c := c) hcmd hrun
      refine ⟨ty, data, _, none, q, hform, hident, hr, hcfg, hcommands, hsource, hpolicy,
        n, some c, q', hdata, ?_, rfl, completedError_of_responses rfl, ?_⟩
      · simp [Attempt.ending, identDue]
      · simp [Attempt.ending, writerAfterRaise_of_sinkError hcmd (hdata.cause c rfl)]
    | none =>
      cases hrun with
      | done hrun _ =>
      obtain ⟨hr, hcfg, hcommands, hsource, hpolicy⟩ := hrun.outside
      refine ⟨ty, data, _, none, q, hform, hident, hr, hcfg, hcommands, hsource, hpolicy,
        n, none, q', hdata, ?_, rfl, hdata.accepted.2.mp rfl, completedOk_of_responses rfl, rfl, ?_⟩
      · simp [Attempt.ending, identDue]
      · simp [Attempt.ending]

/-- A byte that leaves room in the buffer is buffered (R311). -/
theorem writeBytes_cons_of_not_full {b : Byte} {s : State}
    (h : (s.w.buf ++ [b]).length ≠ Config.chunkMax) (rest : List Byte) :
    writeBytes (b :: rest) s = writeBytes rest (s.setW { s.w with buf := s.w.buf ++ [b] }) := by
  simp only [writeBytes, State.setW_w, h, if_false]

/-- A last byte that fills the buffer emits it (R312). -/
theorem writeBytes_singleton_of_full {b : Byte} {s : State}
    (h : (s.w.buf ++ [b]).length = Config.chunkMax) :
    writeBytes [b] s = emitChunk (s.setW { s.w with buf := s.w.buf ++ [b] }) := by
  simp only [writeBytes, State.setW_w, h, if_true]
  split
  · next he => exact he.symm
  · next he => exact he.symm

/-- FW_WRITE of bytes that exactly fill the buffer emits it (R311, R312). -/
theorem writeBytes_of_fills {src : List Byte} {s : State} (hne : src ≠ [])
    (hlen : s.w.buf.length + src.length = Config.chunkMax) :
    writeBytes src s = emitChunk (s.setW { s.w with buf := s.w.buf ++ src }) := by
  induction src generalizing s with
  | nil => exact absurd rfl hne
  | cons b rest ih =>
    cases rest with
    | nil => exact writeBytes_singleton_of_full (by rwa [List.length_append])
    | cons b' rest =>
      have hroom : (s.w.buf ++ [b]).length + (b' :: rest).length = Config.chunkMax := by
        simp only [List.length_append, List.length_cons, List.length_nil] at hlen ⊢
        omega
      have hshort : (s.w.buf ++ [b]).length ≠ Config.chunkMax := by
        rw [List.length_cons] at hroom
        omega
      rw [writeBytes_cons_of_not_full hshort, ih (by simp) hroom]
      simp [State.setW]

/-- Settles O28: the last byte fills the buffer. -/
theorem writeEmitsFullBuffer : Obligations.WriteEmitsFullBuffer := by
  intro src s ho hne hlen
  refine ⟨_, exec_fwWrite_of_opened ho src, ?_⟩
  rw [writeBytes_of_fills hne hlen]
  exact emitChunk_emitted rfl ..

theorem flushBuffer_of_ne_nil {s : State} (h : s.w.buf ≠ []) : flushBuffer s = emitChunk s :=
  if_pos (List.length_pos_iff.mpr h)

theorem flushBuffer_of_nil {s : State} (h : s.w.buf = []) : flushBuffer s = .done s := by
  simp [flushBuffer, h]

/-- The end of FW_FLUSH and FW_CLOSE, which differ in their code and the phase they leave (R321,
R322). -/
theorem endWriter_flushBuffer {cmd : Byte} (hcmd : isWriterCmd cmd = true) (phase : WPhase)
    (s : State) :
    let t := endWriter cmd .none ((flushBuffer s).withPhase phase)
    (s.w.buf ≠ [] → emitted cmd .none s.w.buf phase s t) ∧
      (s.w.buf = [] → completedOk cmd .none s t ∧ t.w = { s.w with phase := phase } ∧ t.r = s.r ∧
        t.dec = s.dec ∧ sameEncoder s t ∧ sameConfig s t ∧ sameChannels s t) := by
  refine ⟨fun hbuf => ?_, fun hbuf => ?_⟩
  · rw [flushBuffer_of_ne_nil hbuf]
    exact emitChunk_emitted hcmd ..
  · rw [flushBuffer_of_nil hbuf]
    exact ⟨completedOk_of_responses rfl, rfl, rfl, rfl, ⟨rfl, rfl⟩, ⟨rfl, rfl⟩,
      rfl, rfl, rfl, rfl, rfl⟩

/-- Settles O30: both commands end as `endWriter_flushBuffer` says. -/
theorem flushAndCloseEmitTheBuffer : Obligations.FlushAndCloseEmitTheBuffer := by
  intro s ho p hp
  obtain rfl | rfl : p = (0x31, .fwFlush, .opened) ∨ p = (0x32, .fwClose, .closed) := by
    simpa using hp
  · obtain ⟨hemit, hempty⟩ := endWriter_flushBuffer (cmd := cmdFwFlush) rfl .opened s
    exact ⟨fun hbuf => ⟨_, exec_fwFlush_of_opened ho, hemit hbuf⟩,
      fun hbuf => ⟨_, exec_fwFlush_of_opened ho, hempty hbuf⟩⟩
  · obtain ⟨hemit, hempty⟩ := endWriter_flushBuffer (cmd := cmdFwClose) rfl .closed s
    exact ⟨fun hbuf => ⟨_, exec_fwClose_of_opened ho, hemit hbuf⟩,
      fun hbuf => ⟨_, exec_fwClose_of_opened ho, hempty hbuf⟩⟩

/-! ### The chunks of FR_READ (O39, O40, O43) -/

/-- A header that passes CHECK_HEADER raises nothing (R354, R355). -/
theorem checkHeader_of_headerPasses {ty : Byte} {len : Nat} {s : State}
    (hs : anyChunkAllowed s ∨ ty = 0xFF) (h : headerPasses ty len) :
    checkHeader ty len s = none := by
  have hident : ¬ (s.reqIdent = true ∧ s.r.identSeen = false ∧ ty ≠ 0xFF) := by
    rintro ⟨hreq, hseen, hty⟩
    obtain (hreq' | hseen') | hty' := hs
    · exact Bool.false_ne_true (hreq'.symm.trans hreq)
    · exact Bool.false_ne_true (hseen.symm.trans hseen')
    · exact hty hty'
  rw [checkHeader, if_neg hident]
  obtain ⟨rfl, hlow, hhigh⟩ | ⟨rfl, hlow, hhigh⟩ | ⟨hlow, hhigh⟩ | ⟨rfl, rfl⟩ := h
  · have hmax : len - 4 ≤ compressedChunkMax := by
      simp only [compressedChunkMax, bound, Config.chunkMax, Config.boundConst]; omega
    simp [Nat.not_lt.mpr hlow, Nat.not_lt.mpr hmax]
  · have hmax : len - 4 ≤ Config.chunkMax := by simp only [Config.chunkMax]; omega
    simp [Nat.not_lt.mpr hlow, Nat.not_lt.mpr hmax]
  · have h0 : ty ≠ 0#8 := by rintro rfl; simp at hlow
    have h1 : ty ≠ 1#8 := by rintro rfl; simp at hlow
    have hFF : ty ≠ 255#8 := by rintro rfl; simp at hhigh
    have hreserved : ¬ ty.toNat ≤ 0x7F := by omega
    simp [h0, h1, hFF, hreserved]
  · decide

section
variable (n : Nat) (q : Source) (s : State)
@[simp] theorem took_commands : (took n q s).commands = s.commands := rfl
@[simp] theorem took_sinkScript : (took n q s).sinkScript = s.sinkScript := rfl
@[simp] theorem took_sink : (took n q s).sink = s.sink := rfl
@[simp] theorem took_policy : (took n q s).policy = s.policy := rfl
end

section
variable {s : State} {max : Word64} {ty : Byte} {len : Nat} {p : List Byte} {q : Source}

/-- A chunk whose header passes and whose payload the source gives is dispatched on it (R352, R361). -/
theorem runChunk_of_takeBytes (he : s.engine = .reading max) (hs : anyChunkAllowed s ∨ ty = 0xFF)
    (hpass : headerPasses ty len) (hp : takeBytes len s.source = some (p, q))
    (dispatch : Word64 → List Byte → State → State) :
    runChunk ty len s dispatch = .next (dispatch max p (took len q s)) := by
  simp only [runChunk, he, checkHeader_of_headerPasses hs hpass, sourceReadExact_of_takeBytes hp]

/-- Error entry of FR_READ after `n` more bytes of the source, whatever the checksum register holds
(R366, R437). -/
theorem readerFailed_raise_setCrc (c : Cause) (n : Nat) (q : Source) (v : Word32) (s : State) :
    readerFailed c n q s (raise cmdFrRead c ((took n q s).setCrc v)) := by
  refine ⟨completedError_of_responses rfl, ?_⟩
  simp [sameConfig, readerAfterRaise, writerAfterRaise_of_not_writer (cmd := cmdFrRead) rfl]

theorem readerFailed_raise (c : Cause) (n : Nat) (q : Source) (s : State) :
    readerFailed c n q s (raise cmdFrRead c (took n q s)) :=
  readerFailed_raise_setCrc c n q s.crc s

theorem acceptData_of_eq {stored u : List Byte} (h : stored = leBytes 4 (chk u).toNat) (s : State) :
    acceptData stored u s = (setCrcOf u s).setR { s.r with pending := u } :=
  if_neg (not_not.mpr h)

theorem acceptData_of_ne {stored u : List Byte} (h : stored ≠ leBytes 4 (chk u).toNat) (s : State) :
    acceptData stored u s = raise cmdFrRead .checksum (setCrcOf u s) :=
  if_pos h

end

/-- Settles O39: the chunk is dispatched to the checksum comparison. -/
theorem uncompressedChunkYieldsItsData : Obligations.UncompressedChunkYieldsItsData := by
  intro s max len p q he hs hlow hhigh hp
  have hrun : exec (.chunkUncompressed len) s =
      .next (acceptData (p.take 4) (p.drop 4) (took len q s)) :=
    runChunk_of_takeBytes he (.inl hs) (.inr (.inl ⟨rfl, hlow, hhigh⟩)) hp _
  refine ⟨fun hsum => ?_, fun hsum => ?_⟩
  · rw [acceptData_of_eq hsum] at hrun
    exact ⟨_, hrun, rfl⟩
  · rw [acceptData_of_ne hsum] at hrun
    exact ⟨_, hrun, readerFailed_raise_setCrc ..⟩

theorem chunkDecodeHeader_of_le {data : List Byte} {n : Word64} {h : Nat}
    (hv : varintDecode data = .ok (n, h)) (hn : n.toNat ≤ Config.chunkMax) :
    chunkDecodeHeader data = .ok (n.toNat, h) := by
  simp only [chunkDecodeHeader, hv]
  exact if_neg (Nat.not_lt.mpr hn)

theorem chunkDecodeHeader_of_lt {data : List Byte} {n : Word64} {h : Nat}
    (hv : varintDecode data = .ok (n, h)) (hn : Config.chunkMax < n.toNat) :
    chunkDecodeHeader data = .error .chunkDecodedTooLong := by
  simp only [chunkDecodeHeader, hv]
  exact if_pos hn

theorem chunkDecodeHeader_of_error {data : List Byte} {c : Cause}
    (hv : varintDecode data = .error c) : chunkDecodeHeader data = .error c := by
  simp only [chunkDecodeHeader, hv]

/-- Settles O40: the chunk is dispatched on the header of its data. -/
theorem compressedChunkStartsItsDecode : Obligations.CompressedChunkStartsItsDecode := by
  intro s max len p q he hs hlow hhigh hp
  have hrun := runChunk_of_takeBytes he (.inl hs) (.inl ⟨rfl, hlow, hhigh⟩) hp
  have hfails : ∀ c, chunkDecodeHeader (p.drop 4) = .error c →
      ∃ t, exec (.chunkCompressed len) s = .next t ∧ readerFailed c len q s t := by
    intro c hheader
    refine ⟨_, ?_, readerFailed_raise ..⟩
    rw [exec, execChunkCompressed, hrun]
    simp only [hheader]
  refine ⟨fun n h hv hn => ?_, fun n h hv hn => hfails _ (chunkDecodeHeader_of_lt hv hn),
    fun c hv => hfails c (chunkDecodeHeader_of_error hv)⟩
  rw [exec, execChunkCompressed, hrun]
  simp only [chunkDecodeHeader_of_le hv hn]
  rfl

/-- Settles O43: the payload is compared with `sNaPpY`. -/
theorem identChunkIsChecked : Obligations.IdentChunkIsChecked := by
  intro s max p q he hp
  have hrun : exec (.chunkIdent 6) s = .next (if p ≠ identPayload then
      raise cmdFrRead .streamIdentBad (took 6 q s)
      else (took 6 q s).setR { (took 6 q s).r with identSeen := true }) :=
    runChunk_of_takeBytes he (.inr rfl) (.inr (.inr (.inr ⟨rfl, rfl⟩))) hp _
  refine ⟨fun hident => ?_, fun hident => ?_⟩
  · rw [if_neg (not_not.mpr (show p = identPayload from hident))] at hrun
    exact hrun
  · rw [if_pos (show p ≠ identPayload from hident)] at hrun
    exact ⟨_, hrun, readerFailed_raise ..⟩

end Sys2Proof.Machine

namespace Sys2Proof.Machine
open Sys2Proof.Spec

/-! ### The forms of `decode_elem` (R102 to R106, R112) -/

section
variable {t : Byte} (x : List Byte)

theorem decodeElem_of_literal (h : t.toNat % 4 = 0) :
    decodeElem (t :: x) = decodeLiteral (t.toNat / 4) x := by
  simp [decodeElem, field_low, field_high, h]

theorem decodeElem_of_copy1 (h : t.toNat % 4 = 1) : decodeElem (t :: x) = decodeCopy1 t x := by
  simp [decodeElem, field_low, h]

theorem decodeElem_of_copy2 (h : t.toNat % 4 = 2) : decodeElem (t :: x) = decodeCopy2 t x := by
  simp [decodeElem, field_low, h]

theorem decodeElem_of_copy4 (h : t.toNat % 4 = 3) : decodeElem (t :: x) = decodeCopy4 t x := by
  simp [decodeElem, field_low, h]

end

/-- The high three bits of a Copy1 tag. -/
theorem field_offset (t : Byte) : field t 7 5 = t.toNat / 32 := by
  have := t.isLt
  simp only [field]
  omega

/-- The length field of a Copy1 tag. -/
theorem field_length (t : Byte) : field t 4 2 = t.toNat / 4 % 8 := rfl

/-- A tag that fits a byte is its value. -/
theorem toNat_tag {n : Nat} (h : n < 256) : (BitVec.ofNat 8 n).toNat = n := by
  rw [BitVec.toNat_ofNat, Nat.mod_eq_of_lt h]

theorem literalFits_iff {k : Nat} {b : List Byte} :
    literalFits k b = true ↔ 1 ≤ b.length ∧ b.length ≤ 256 ^ k := by
  simp [literalFits]

/-! ### Decoding an encoded element (O1) -/

/-- The literal bytes are read whole, whatever follows them. -/
theorem literalTail_append (k : Nat) (b rest : List Byte) (mk : List Byte → Instr) :
    literalTail k b.length (b ++ rest) mk = .ok (mk b, 1 + k + b.length) := by
  simp [literalTail]

theorem decodeLiteralX_append {k : Nat} {b : List Byte} (hb : literalFits k b = true)
    (rest : List Byte) (mk : List Byte → Instr) :
    decodeLiteralX k (leBytes k (b.length - 1) ++ (b ++ rest)) mk =
      .ok (mk b, 1 + k + b.length) := by
  obtain ⟨hpos, hle⟩ := literalFits_iff.mp hb
  have hlen : leValue (leBytes k (b.length - 1)) + 1 = b.length := by
    rw [leValue_leBytes, Nat.mod_eq_of_lt (by omega), Nat.sub_add_cancel hpos]
  simp [decodeLiteralX, List.take_left', List.drop_left', hlen, literalTail_append]

theorem decodeElem_encodeLiteralX {k : Nat} {b : List Byte} {mk : List Byte → Instr}
    (hb : literalFits k b = true) (hk : k ≤ 4)
    (hmk : ∀ x, decodeLiteral (59 + k) x = decodeLiteralX k x mk) (rest : List Byte) :
    decodeElem (encodeLiteralX k b ++ rest) = .ok (mk b, (encodeLiteralX k b).length) := by
  have htag := toNat_tag (n := (59 + k) * 4) (by omega)
  rw [encodeLiteralX, List.cons_append, List.cons_append, List.append_assoc,
    decodeElem_of_literal _ (by omega), htag, Nat.mul_div_cancel _ (by decide), hmk,
    decodeLiteralX_append hb]
  simp [Nat.add_comm 1, Nat.add_right_comm]

section
variable {t : Byte} {offset len : Nat} (rest : List Byte)

theorem le_length_leBytes_append (k : Nat) : k ≤ (leBytes k offset ++ rest).length := by
  rw [List.length_append, leBytes_length]
  exact Nat.le_add_right ..

/-- The offset field is read whole, whatever follows it. -/
theorem leValue_take_leBytes (k : Nat) :
    leValue ((leBytes k offset ++ rest).take k) = offset % 256 ^ k := by
  rw [List.take_left' (leBytes_length k offset), leValue_leBytes]

theorem decodeCopy1_append (hoffset : t.toNat / 32 = offset / 256)
    (hlen : t.toNat / 4 % 8 + 4 = len) :
    decodeCopy1 t (leBytes 1 offset ++ rest) = .ok (.copy1 offset len, 2) := by
  rw [decodeCopy1, if_neg (le_length_leBytes_append ..).not_gt, leValue_take_leBytes, field_offset,
    field_length, hoffset, hlen, Nat.pow_one, Nat.div_add_mod']

theorem decodeCopy2_append (hoffset : offset < 256 ^ 2) (hlen : t.toNat / 4 + 1 = len) :
    decodeCopy2 t (leBytes 2 offset ++ rest) = .ok (.copy2 offset len, 3) := by
  rw [decodeCopy2, if_neg (le_length_leBytes_append ..).not_gt, leValue_take_leBytes, field_high,
    hlen, Nat.mod_eq_of_lt hoffset]

theorem decodeCopy4_append (hoffset : offset < 256 ^ 4) (hlen : t.toNat / 4 + 1 = len) :
    decodeCopy4 t (leBytes 4 offset ++ rest) = .ok (.copy4 offset len, 5) := by
  rw [decodeCopy4, if_neg (le_length_leBytes_append ..).not_gt, leValue_take_leBytes, field_high,
    hlen, Nat.mod_eq_of_lt hoffset]

end

/-- Decoding inverts encoding on every well-formed element, by its form (R112's last sentence). -/
theorem decodeElem_encodeElem {i : Instr} (hi : i.isElement = true) (hwf : i.wellFormed = true)
    (rest : List Byte) :
    decodeElem (encodeElem i ++ rest) = .ok (i, (encodeElem i).length) := by
  cases i with
  | lit b =>
    have hb : 1 ≤ b.length ∧ b.length ≤ 60 := of_decide_eq_true hwf
    have htag := toNat_tag (n := (b.length - 1) * 4) (by omega)
    rw [encodeElem, List.cons_append, decodeElem_of_literal _ (by omega), htag,
      Nat.mul_div_cancel _ (by decide), decodeLiteral, if_pos (by omega), Nat.sub_add_cancel hb.1,
      literalTail_append, List.length_cons, Nat.add_zero, Nat.add_comm]
  | litX1 b | litX2 b | litX3 b | litX4 b =>
    exact decodeElem_encodeLiteralX hwf (by decide) (fun _ => rfl) rest
  | copy1 offset len =>
    have hb : offset ≤ 2047 ∧ 4 ≤ len ∧ len ≤ 11 := of_decide_eq_true hwf
    have htag := toNat_tag (n := offset / 256 * 32 + (len - 4) * 4 + 1) (by omega)
    rw [encodeElem, List.cons_append, decodeElem_of_copy1 _ (by omega)]
    exact decodeCopy1_append rest (by omega) (by omega)
  | copy2 offset len =>
    have hb : offset ≤ 65535 ∧ 1 ≤ len ∧ len ≤ 64 := of_decide_eq_true hwf
    have htag := toNat_tag (n := (len - 1) * 4 + 2) (by omega)
    rw [encodeElem, List.cons_append, decodeElem_of_copy2 _ (by omega)]
    exact decodeCopy2_append rest (by omega) (by omega)
  | copy4 offset len =>
    have hb : offset ≤ 4294967295 ∧ 1 ≤ len ∧ len ≤ 64 := of_decide_eq_true hwf
    have htag := toNat_tag (n := (len - 1) * 4 + 3) (by omega)
    rw [encodeElem, List.cons_append, decodeElem_of_copy4 _ (by omega)]
    exact decodeCopy4_append rest (by omega) (by omega)
  | _ => cases hi

/-- Settles O1: the tag names the form, and the form's fields are read back. -/
theorem decodeInvertsEncodeOnElements : Obligations.DecodeInvertsEncodeOnElements :=
  fun _ rest hi hwf => decodeElem_encodeElem hi hwf rest

end Sys2Proof.Machine

namespace Sys2Proof.Machine
open Sys2Proof.Spec

/-! ### Bytes taken as a field, encoded again (R17) -/

section
variable {t : Byte}

theorem ofNat_eq_of_eq_toNat {n : Nat} (h : n = t.toNat) : BitVec.ofNat 8 n = t := by
  rw [h, BitVec.ofNat_toNat, BitVec.setWidth_eq]

variable {k : Nat} {x : List Byte} (h : k ≤ x.length)
include h

theorem leValue_take_lt : leValue (x.take k) < 256 ^ k := by
  have hlt := leValue_lt (x.take k)
  rwa [List.length_take_of_le h] at hlt

theorem leBytes_leValue_take : leBytes k (leValue (x.take k)) = x.take k := by
  have hbytes := leBytes_leValue (x.take k)
  rwa [List.length_take_of_le h] at hbytes

end

/-- A one-byte field holds its value's low byte. -/
theorem leBytes_one_add_mul (a v : Nat) : leBytes 1 (a * 256 + v) = leBytes 1 v := by
  simp [leBytes, ← BitVec.toNat_inj]

/-! ### What `decode_elem` can answer (R109, R112) -/

/-- What `decode_elem` can answer for the input `b`: a well-formed element whose encoding `b` begins
with, or that the element is cut short. -/
inductive ElementAnswer (b : List Byte) : Except Cause (Instr × Nat) → Prop
  | element {i : Instr} {k : Nat} (hwf : i.wellFormed = true) (hb : encodeElem i <+: b) :
      ElementAnswer b (.ok (i, k))
  | cut {c : Cause} (hc : c = .tagTruncated ∨ c = .literalTruncated) : ElementAnswer b (.error c)

section
variable {t : Byte} {x : List Byte}

theorem decodeLiteralX_answer {k : Nat} {mk : List Byte → Instr}
    (hwf : ∀ b, (mk b).wellFormed = literalFits k b)
    (henc : ∀ b, encodeElem (mk b) = encodeLiteralX k b) (ht : t.toNat = (59 + k) * 4) :
    ElementAnswer (t :: x) (decodeLiteralX k x mk) := by
  unfold decodeLiteralX
  split
  · exact .cut (.inl rfl)
  · next hk =>
    rw [Nat.not_lt] at hk
    unfold literalTail
    split
    · exact .cut (.inr rfl)
    · next hlen =>
      have hb : ((x.drop k).take (leValue (x.take k) + 1)).length = leValue (x.take k) + 1 :=
        List.length_take_of_le (Nat.not_lt.mp hlen)
      refine .element ?_ ?_
      · rw [hwf, literalFits_iff, hb]
        exact ⟨Nat.succ_pos _, leValue_take_lt hk⟩
      · rw [henc, encodeLiteralX, hb, Nat.add_sub_cancel, leBytes_leValue_take hk,
          ofNat_eq_of_eq_toNat ht.symm, List.cons_append, List.cons_prefix_cons]
        refine ⟨rfl, ?_⟩
        calc x.take k ++ (x.drop k).take (leValue (x.take k) + 1)
          _ <+: x.take k ++ x.drop k := (List.prefix_append_right_inj _).mpr (List.take_prefix ..)
          _ = x := List.take_append_drop ..

theorem decodeLiteral_answer (h : t.toNat % 4 = 0) :
    ElementAnswer (t :: x) (decodeLiteral (t.toNat / 4) x) := by
  have htag : t.toNat < 256 := t.isLt
  unfold decodeLiteral
  split
  · unfold literalTail
    split
    · exact .cut (.inr rfl)
    · next hlen =>
      have hb : (x.take (t.toNat / 4 + 1)).length = t.toNat / 4 + 1 :=
        List.length_take_of_le (Nat.not_lt.mp hlen)
      refine .element (decide_eq_true (by omega)) ?_
      rw [encodeElem, hb, ofNat_eq_of_eq_toNat (t := t) (by omega), List.cons_prefix_cons]
      exact ⟨rfl, List.take_prefix ..⟩
  · iterate 3
      split
      · exact decodeLiteralX_answer (fun _ => rfl) (fun _ => rfl) (by omega)
    exact decodeLiteralX_answer (fun _ => rfl) (fun _ => rfl) (by omega)

/-- A copy is its tag and the `k` bytes of its offset field. -/
theorem decodeCopy_answer {k : Nat} {i : Instr} (hwf : k ≤ x.length → i.wellFormed = true)
    (henc : k ≤ x.length → encodeElem i = t :: x.take k) :
    ElementAnswer (t :: x) (if x.length < k then .error .tagTruncated else .ok (i, k + 1)) := by
  split
  · exact .cut (.inl rfl)
  · next h =>
    rw [Nat.not_lt] at h
    refine .element (hwf h) ?_
    rw [henc h, List.cons_prefix_cons]
    exact ⟨rfl, List.take_prefix ..⟩

theorem decodeCopy1_answer (h : t.toNat % 4 = 1) : ElementAnswer (t :: x) (decodeCopy1 t x) := by
  have htag : t.toNat < 256 := t.isLt
  refine decodeCopy_answer (fun hx => ?_) fun hx => ?_
  · have hlt : leValue (x.take 1) < 256 := leValue_take_lt hx
    simp only [Instr.wellFormed, field_offset, field_length, decide_eq_true_eq]
    omega
  · have hlt : leValue (x.take 1) < 256 := leValue_take_lt hx
    rw [encodeElem, field_offset, field_length, leBytes_one_add_mul, leBytes_leValue_take hx,
      ofNat_eq_of_eq_toNat (t := t) (by omega)]

theorem decodeCopy2_answer (h : t.toNat % 4 = 2) : ElementAnswer (t :: x) (decodeCopy2 t x) := by
  have htag : t.toNat < 256 := t.isLt
  refine decodeCopy_answer (fun hx => ?_) fun hx => ?_
  · have hlt : leValue (x.take 2) < 65536 := leValue_take_lt hx
    simp only [Instr.wellFormed, field_high, decide_eq_true_eq]
    omega
  · rw [encodeElem, field_high, leBytes_leValue_take hx, ofNat_eq_of_eq_toNat (t := t) (by omega)]

theorem decodeCopy4_answer (h : t.toNat % 4 = 3) : ElementAnswer (t :: x) (decodeCopy4 t x) := by
  have htag : t.toNat < 256 := t.isLt
  refine decodeCopy_answer (fun hx => ?_) fun hx => ?_
  · have hlt : leValue (x.take 4) < 4294967296 := leValue_take_lt hx
    simp only [Instr.wellFormed, field_high, decide_eq_true_eq]
    omega
  · rw [encodeElem, field_high, leBytes_leValue_take hx, ofNat_eq_of_eq_toNat (t := t) (by omega)]

end

/-- A tag's low two bits are one of four (R102). -/
theorem tag_cases (t : Byte) :
    t.toNat % 4 = 0 ∨ t.toNat % 4 = 1 ∨ t.toNat % 4 = 2 ∨ t.toNat % 4 = 3 := by
  omega

theorem decodeElem_answer (b : List Byte) : ElementAnswer b (decodeElem b) := by
  cases b with
  | nil => exact .cut (.inl rfl)
  | cons t x =>
    obtain h | h | h | h := tag_cases t
    · rw [decodeElem_of_literal x h]; exact decodeLiteral_answer h
    · rw [decodeElem_of_copy1 x h]; exact decodeCopy1_answer h
    · rw [decodeElem_of_copy2 x h]; exact decodeCopy2_answer h
    · rw [decodeElem_of_copy4 x h]; exact decodeCopy4_answer h

theorem decodeElem_ok_answer {b : List Byte} {i : Instr} {k : Nat} (h : decodeElem b = .ok (i, k)) :
    i.wellFormed = true ∧ encodeElem i <+: b := by
  have hanswer := decodeElem_answer b
  rw [h] at hanswer
  cases hanswer with
  | element hwf hb => exact ⟨hwf, hb⟩

/-- An element is refused only for being cut short (R109). -/
theorem decodeElem_error_answer {b : List Byte} {c : Cause} (h : decodeElem b = .error c) :
    c = .tagTruncated ∨ c = .literalTruncated := by
  have hanswer := decodeElem_answer b
  rw [h] at hanswer
  cases hanswer with
  | cut hc => exact hc

/-! ### What is read encodes to the bytes taken (O3) -/

/-- An element's encoding has the element's size (R107). -/
theorem encodeElem_length {i : Instr} (hi : i.isElement = true) :
    (encodeElem i).length = i.size := by
  cases i with
  | lit b => exact Laws.EncodedSize.lit b
  | litX1 b => exact Laws.EncodedSize.litX1 b
  | litX2 b => exact Laws.EncodedSize.litX2 b
  | litX3 b => exact Laws.EncodedSize.litX3 b
  | litX4 b => exact Laws.EncodedSize.litX4 b
  | copy1 offset len | copy2 offset len | copy4 offset len => rfl
  | _ => cases hi

/-- Settles O3: the input begins with the encoding of the element that is read, which is as long as
the bytes taken. -/
theorem decodedElementReencodes : Obligations.DecodedElementReencodes := by
  intro b i k h
  obtain ⟨hi, rfl, hpos, hle⟩ := decodeElem_ok h
  obtain ⟨hwf, hb⟩ := decodeElem_ok_answer h
  refine ⟨hi, hwf, hpos, hle, ?_⟩
  rw [← encodeElem_length hi]
  exact List.prefix_iff_eq_take.mp hb

/-! ### Every tag byte (O4) -/

/-- The element's type is the one the low two bits of the tag `t` name (R102). -/
def TagNames (t : Byte) (i : Instr) : Prop :=
  (t.toNat % 4 = 0 → ∃ b, i ∈ [Instr.lit b, .litX1 b, .litX2 b, .litX3 b, .litX4 b]) ∧
    (t.toNat % 4 = 1 → ∃ offset len, i = .copy1 offset len) ∧
    (t.toNat % 4 = 2 → ∃ offset len, i = .copy2 offset len) ∧
    (t.toNat % 4 = 3 → ∃ offset len, i = .copy4 offset len)

theorem toNat_of_cons_prefix {n : Nat} {t : Byte} {y x : List Byte}
    (h : BitVec.ofNat 8 n :: y <+: t :: x) : t.toNat = n % 256 := by
  rw [← (List.cons_prefix_cons.mp h).1, BitVec.toNat_ofNat]

/-- The tag of an encoded element names its type. -/
theorem tagNames_of_encodeElem {i : Instr} {t : Byte} {x : List Byte} (hi : i.isElement = true)
    (h : encodeElem i <+: t :: x) : TagNames t i := by
  cases i with
  | lit b | litX1 b | litX2 b | litX3 b | litX4 b =>
    have htag := toNat_of_cons_prefix h
    exact ⟨fun _ => ⟨b, by simp⟩, by omega, by omega, by omega⟩
  | copy1 offset len =>
    have htag := toNat_of_cons_prefix h
    exact ⟨by omega, fun _ => ⟨offset, len, rfl⟩, by omega, by omega⟩
  | copy2 offset len =>
    have htag := toNat_of_cons_prefix h
    exact ⟨by omega, by omega, fun _ => ⟨offset, len, rfl⟩, by omega⟩
  | copy4 offset len =>
    have htag := toNat_of_cons_prefix h
    exact ⟨by omega, by omega, by omega, fun _ => ⟨offset, len, rfl⟩⟩
  | _ => cases hi

/-- A literal with any tag field is whole when 60 zero bytes follow the tag: they hold its bytes, or
the length field of a literal of one byte and that byte. -/
theorem decodeLiteral_zeros {m : Nat} (hm : m < 64) :
    ∃ i k, decodeLiteral m (List.replicate 60 0) = .ok (i, k) := by
  by_cases h : m < 60
  · rw [decodeLiteral, if_pos h, literalTail, if_neg (by rw [List.length_replicate]; omega)]
    exact ⟨_, _, rfl⟩
  · obtain rfl | rfl | rfl | rfl : m = 60 ∨ m = 61 ∨ m = 62 ∨ m = 63 := by omega
    · exact ⟨.litX1 [0], 3, rfl⟩
    · exact ⟨.litX2 [0], 4, rfl⟩
    · exact ⟨.litX3 [0], 5, rfl⟩
    · exact ⟨.litX4 [0], 6, rfl⟩

theorem decodeElem_zeros (t : Byte) :
    ∃ i k, decodeElem (t :: List.replicate 60 0) = .ok (i, k) := by
  have htag : t.toNat < 256 := t.isLt
  obtain h | h | h | h := tag_cases t
  · rw [decodeElem_of_literal _ h]
    exact decodeLiteral_zeros (by omega)
  · rw [decodeElem_of_copy1 _ h]
    exact ⟨_, _, rfl⟩
  · rw [decodeElem_of_copy2 _ h]
    exact ⟨_, _, rfl⟩
  · rw [decodeElem_of_copy4 _ h]
    exact ⟨_, _, rfl⟩

/-- Settles O4: zero bytes complete any tag, and the tag of what is read is that of its encoding. -/
theorem everyTagByteDecodes : Obligations.EveryTagByteDecodes := by
  intro t
  refine ⟨⟨List.replicate 60 0, decodeElem_zeros t⟩, fun x i k h => ?_,
    fun x c => decodeElem_error_answer⟩
  exact tagNames_of_encodeElem (decodeElem_ok h).1 (decodeElem_ok_answer h).2

end Sys2Proof.Machine

namespace Sys2Proof.Machine
open Sys2Proof.Spec

/-! ### Chunk headers (R113, R114) -/

section
variable {ty : Byte} (len : Nat)

theorem chunkOf_reserved (h : 0x02 ≤ ty.toNat ∧ ty.toNat ≤ 0x7F) :
    chunkOf ty len = .chunkReserved ty len := by
  rw [chunkOf, if_neg (by omega), if_neg (by omega), if_pos h.2]

theorem chunkOf_skip (h : 0x80 ≤ ty.toNat ∧ ty.toNat ≤ 0xFD) :
    chunkOf ty len = .chunkSkip ty len := by
  rw [chunkOf, if_neg (by omega), if_neg (by omega), if_neg (by omega), if_pos h.2]

end

theorem decodeChunk_header (ty a b c : Byte) (rest : List Byte) :
    decodeChunk (ty :: a :: b :: c :: rest) =
      .ok (chunkOf ty (a.toNat + 256 * b.toNat + 65536 * c.toNat)) := by
  have hlen : leValue [a, b, c] = a.toNat + 256 * b.toNat + 65536 * c.toNat := by
    simp only [leValue]
    omega
  rw [decodeChunk, hlen]

/-- Settles O5: the header is read field by field, and the map has one row for each type. -/
theorem chunkHeaderDecodes : Obligations.ChunkHeaderDecodes := by
  intro ty a b c rest len
  rw [decodeChunk_header]
  refine ⟨?_, ?_, fun h => ?_, fun h => ?_, ?_, ?_⟩
  · rintro rfl; rfl
  · rintro rfl; rfl
  · rw [chunkOf_reserved _ h]
  · rw [chunkOf_skip _ h]
  · rintro rfl; rfl
  · rintro rfl; rfl

/-! ### Decoding an encoded instruction of any space (O2) -/

theorem decode_element {i : Instr} (hi : i.isElement = true) (hwf : i.wellFormed = true) :
    decode (.element (encodeElem i)) = .ok (i, i.size) := by
  have h := decodeElem_encodeElem hi hwf []
  rwa [List.append_nil, encodeElem_length hi] at h

theorem decode_chunkHeader {len : Nat} (hlen : chunkLenFits len = true) (ty : Byte) :
    decode (.chunk (chunkHeader ty len)) = .ok (chunkOf ty len, 4) := by
  have hfits : len < 256 ^ 3 := of_decide_eq_true hlen
  have hheader :
      decodeChunk (chunkHeader ty len) = .ok (chunkOf ty (leValue (leBytes 3 len))) := rfl
  rw [decode, hheader, leValue_leBytes, Nat.mod_eq_of_lt hfits]
  rfl

/-- Settles O2: each opcode space has its own round trip. -/
theorem decodeInvertsEncode : Obligations.DecodeInvertsEncode := by
  intro i hwf
  cases i with
  | lit b | litX1 b | litX2 b | litX3 b | litX4 b => exact decode_element rfl hwf
  | copy1 offset len | copy2 offset len | copy4 offset len => exact decode_element rfl hwf
  | chunkCompressed len | chunkUncompressed len | chunkPad len | chunkIdent len =>
    exact decode_chunkHeader hwf _
  | chunkReserved ty len =>
    obtain ⟨hty, hlen⟩ := Bool.and_eq_true_iff.mp hwf
    exact (decode_chunkHeader hlen ty).trans
      (by rw [chunkOf_reserved len (of_decide_eq_true hty)]; rfl)
  | chunkSkip ty len =>
    obtain ⟨hty, hlen⟩ := Bool.and_eq_true_iff.mp hwf
    exact (decode_chunkHeader hlen ty).trans (by rw [chunkOf_skip len (of_decide_eq_true hty)]; rfl)
  | _ => rfl

/-! ### Words of the spec (O6) -/

/-- Settles O6: each word is fixed, and decoding it is evaluated. -/
theorem writtenOutWordsDecode : Obligations.WrittenOutWordsDecode := by
  refine ⟨?_, ?_, ?_, ?_, ?_, ?_, ?_, ?_, ?_⟩ <;> decide

/-! ### An element that fails (O14) -/

/-- Error entry from a decode loop fails the command whose loop it is (R437). -/
theorem decodeFails_raise (c : Cause) (s : State) :
    decodeFails c s (raise (decodingCmd s.engine) c s) := by
  refine ⟨fun h => ?_, fun ⟨max, stored, h⟩ => ?_⟩ <;> rw [h]
  · exact oneShotError_raise rfl rfl
  · exact ⟨readerFailed_raise c 0 s.source s, rfl⟩

section
variable {s : State} (hs : decoding s) {c : Cause}
include hs

theorem raiseDecode_fails : ∃ t, raiseDecode c s = .next t ∧ decodeFails c s t :=
  ⟨_, raiseDecode_of_decoding hs c, decodeFails_raise c s⟩

theorem runElement_error (k : Nat) : runElement k (.error c) s = raiseDecode c s := by
  obtain h | ⟨max, stored, h⟩ := hs <;> rw [runElement, h]

/-- An element whose effect is an error ends the command. -/
theorem exec_element_fails {i : Instr} (hi : i.isElement = true)
    (he : elementEffect s.dec.len i s.dec.dst = .error c) :
    ∃ t, exec i s = .next t ∧ decodeFails c s t := by
  rw [exec_element hi, he, runElement_error hs]
  exact raiseDecode_fails hs

/-- An element cut short ends the command before it is executed (R244). -/
theorem step_fails_of_cut (hpc : s.dec.pc < s.dec.src.length)
    (hc : decodeElem (s.dec.src.drop s.dec.pc) = .error c) :
    ∃ t, step s = .next t ∧ decodeFails c s t := by
  have hstep : step s = raiseDecode c s := by
    simp [step, fetch_of_decoding hs, fetchElement, hpc, hc]
  rw [hstep]
  exact raiseDecode_fails hs

end

section
variable {len offset n : Nat} {dst : List Byte}

theorem copyExec_of_beyond (h0 : offset ≠ 0) (h : dst.length < offset) :
    copyExec len offset n dst = .error .offsetBeyondOutput := by
  rw [copyExec, if_neg h0, if_pos h]

theorem copyExec_of_overshoot (h0 : offset ≠ 0) (h : offset ≤ dst.length)
    (hlen : len < dst.length + n) : copyExec len offset n dst = .error .overshoot := by
  rw [copyExec, if_neg h0, if_neg h.not_gt, if_pos hlen]

end

/-- The copy forms are elements with the effect of COPY_EXEC (R246 to R248). -/
theorem copy_effect {i : Instr} {offset n : Nat}
    (hi : i ∈ [Instr.copy1 offset n, .copy2 offset n, .copy4 offset n]) :
    i.isElement = true ∧ ∀ len dst, elementEffect len i dst = copyExec len offset n dst := by
  simp only [List.mem_cons, List.not_mem_nil, or_false] at hi
  obtain rfl | rfl | rfl := hi <;> exact ⟨rfl, fun _ _ => rfl⟩

/-- The literal forms are elements that append their bytes (R245). -/
theorem literal_effect {i : Instr} {b : List Byte}
    (hi : i ∈ [Instr.lit b, .litX1 b, .litX2 b, .litX3 b, .litX4 b]) :
    i.isElement = true ∧ ∀ len dst, elementEffect len i dst = putLiteral len b dst := by
  simp only [List.mem_cons, List.not_mem_nil, or_false] at hi
  obtain rfl | rfl | rfl | rfl | rfl := hi <;> exact ⟨rfl, fun _ _ => rfl⟩

/-- Settles O14: the first failing check of COPY_EXEC or of a literal is its effect's error. -/
theorem elementChecksRunInOrder : Obligations.ElementChecksRunInOrder := by
  intro s offset n b hs
  refine ⟨fun i hi => ?_, fun i hi hlen => ?_, fun c hpc hc => ?_⟩
  · obtain ⟨helem, heffect⟩ := copy_effect hi
    refine ⟨fun h => ?_, fun h0 h => ?_, fun h0 h hlen => ?_⟩
    · exact exec_element_fails hs helem ((heffect ..).trans (if_pos h))
    · exact exec_element_fails hs helem ((heffect ..).trans (copyExec_of_beyond h0 h))
    · exact exec_element_fails hs helem ((heffect ..).trans (copyExec_of_overshoot h0 h hlen))
  · obtain ⟨helem, heffect⟩ := literal_effect hi
    exact exec_element_fails hs helem ((heffect ..).trans (if_pos hlen))
  · exact ⟨decodeElem_error_answer hc, step_fails_of_cut hs hpc hc⟩

end Sys2Proof.Machine

namespace Sys2Proof.Machine
open Sys2Proof.Spec

/-! ### Varints (R100, R150, R152) -/

section
variable (n : Word64)

theorem group_continues : ((0x80 : Byte) ||| (n.setWidth 7).setWidth 8).getLsbD 7 = true := by
  simp

theorem group_setWidth :
    ((0x80 : Byte) ||| (n.setWidth 7).setWidth 8).setWidth 7 = n.setWidth 7 := by
  ext i hi
  simp

theorem lastGroup_ends : ((n.setWidth 7).setWidth 8 : Byte).getLsbD 7 = false := by
  simp

theorem lastGroup_setWidth : ((n.setWidth 7).setWidth 8 : Byte).setWidth 7 = n.setWidth 7 := by
  simp

theorem lastGroup_toNat : ((n.setWidth 7).setWidth 8 : Byte).toNat = n.toNat % 128 := by
  simp
  omega

/-- A value is its low group below the groups that remain. -/
theorem low_group_or_rest : (n.setWidth 7).setWidth 64 ||| (n >>> 7) <<< 7 = n := by
  ext j hj
  by_cases h : j < 7
  · simp [h, BitVec.getLsbD_eq_getElem hj]
  · simp [h, Nat.add_sub_cancel' (Nat.le_of_not_lt h), BitVec.getLsbD_eq_getElem hj]

end

section
variable {i : Nat} {n : Word64} (hn : n.toNat < 2 ^ (64 - 7 * i))
include hn

theorem shiftRight_group_lt (hi : i + 1 ≤ 9) : (n >>> 7).toNat < 2 ^ (64 - 7 * (i + 1)) := by
  rw [BitVec.toNat_ushiftRight, Nat.shiftRight_eq_div_pow]
  refine Nat.div_lt_of_lt_mul ?_
  rwa [← Nat.pow_add, show 7 + (64 - 7 * (i + 1)) = 64 - 7 * i by omega]

/-- The last group ends the decode with the value complete; as a tenth byte it is at most 1. -/
theorem varintDecodeLoop_lastGroup (hlast : n >>> 7 = 0) (acc : Word64) (rest : List Byte) :
    varintDecodeLoop i acc ((n.setWidth 7).setWidth 8 :: rest) =
      .ok (acc ||| n <<< (7 * i), i + 1) := by
  have hlow : (n.setWidth 7).setWidth 64 = n := by
    simpa [hlast] using low_group_or_rest n
  have htenth : ¬ (i = 9 ∧ ((n.setWidth 7).setWidth 8 : Byte).toNat > 1) := by
    rintro ⟨rfl, h⟩
    rw [lastGroup_toNat] at h
    omega
  rw [varintDecodeLoop, if_neg htenth]
  simp only [lastGroup_ends, lastGroup_setWidth, if_true, hlow]

end

/-- The decode loop undoes the encode loop: at byte `i`, with `acc` read so far, it adds the value
encoded. -/
theorem varintDecodeLoop_encodeLoop {fuel i : Nat} {n : Word64} (hi : i + fuel = 9)
    (hn : n.toNat < 2 ^ (64 - 7 * i)) (acc : Word64) (rest : List Byte) :
    varintDecodeLoop i acc (varintEncodeLoop (fuel + 1) n ++ rest) =
      .ok (acc ||| n <<< (7 * i), i + (varintEncodeLoop (fuel + 1) n).length) := by
  induction fuel generalizing i n acc with
  | zero =>
    obtain rfl : i = 9 := hi
    have hlast : n >>> 7 = 0 := by
      rw [← BitVec.toNat_inj, BitVec.toNat_ushiftRight, Nat.shiftRight_eq_div_pow]
      exact Nat.div_eq_of_lt (Nat.lt_trans hn (by decide))
    rw [varintEncodeLoop, if_neg (not_not.mpr hlast)]
    exact varintDecodeLoop_lastGroup hn hlast acc rest
  | succ fuel ih =>
    rw [varintEncodeLoop]
    split
    · have hvalue : (n.setWidth 7).setWidth 64 <<< (7 * i) ||| (n >>> 7) <<< (7 * (i + 1)) =
          n <<< (7 * i) := by
        rw [Nat.mul_succ, Nat.add_comm, BitVec.shiftLeft_add, ← BitVec.shiftLeft_or_distrib,
          low_group_or_rest]
      rw [List.cons_append, varintDecodeLoop, if_neg (by omega)]
      simp only [group_continues, group_setWidth]
      rw [if_neg (by decide), ih (by omega) (shiftRight_group_lt hn (by omega)), BitVec.or_assoc,
        hvalue, List.length_cons, Nat.add_assoc, Nat.add_comm 1]
    · next hlast => exact varintDecodeLoop_lastGroup hn (not_not.mp hlast) acc rest

/-- Decoding an encoded integer gives it back, whatever follows it (R154). -/
theorem varintDecode_varintEncode (n : Word64) (rest : List Byte) :
    varintDecode (varintEncode n ++ rest) = .ok (n, (varintEncode n).length) := by
  simpa [varintDecode, varintEncode] using
    varintDecodeLoop_encodeLoop (fuel := 9) (i := 0) rfl n.isLt 0 rest

/-! ### The bytes of a copy (R249, R255) -/

/-- The byte read after one more byte of the copy is the next one of the repeated pattern. -/
theorem getD_append_copied {offset i : Nat} {dst : List Byte} (h0 : 1 ≤ offset)
    (h : offset ≤ dst.length) :
    (dst ++ [dst.getD (dst.length - offset) 0]).getD (dst.length + 1 - offset + i % offset) 0 =
      dst.getD (dst.length - offset + (i + 1) % offset) 0 := by
  have hlt : i % offset < offset := Nat.mod_lt _ h0
  rw [← Nat.mod_add_mod]
  obtain hi | hi : i % offset + 1 < offset ∨ i % offset + 1 = offset := by omega
  · rw [Nat.mod_eq_of_lt hi, List.getD_append _ _ _ _ (by omega)]
    congr 1
    omega
  · rw [hi, Nat.mod_self, List.getD_append_right _ _ _ _ (by omega),
      show dst.length + 1 - offset + i % offset - dst.length = 0 by omega]
    rfl

/-- The byte-serial loop of a copy appends what R255 says. -/
theorem copyBytes_eq {offset : Nat} (h0 : 1 ≤ offset) (n : Nat) {dst : List Byte}
    (h : offset ≤ dst.length) :
    copyBytes offset n dst =
      dst ++ (List.range n).map fun i => dst.getD (dst.length - offset + i % offset) 0 := by
  induction n generalizing dst with
  | zero => simp [copyBytes]
  | succ n ih =>
    have hread : dst[dst.length - offset]? = some (dst.getD (dst.length - offset) 0) := by
      rw [List.getD_eq_getElem _ _ (by omega), List.getElem?_eq_getElem]
    have hle : offset ≤ (dst ++ [dst.getD (dst.length - offset) 0]).length := by
      rw [List.length_append]
      omega
    rw [copyBytes, if_pos h, hread]
    simp only
    rw [ih hle, List.append_assoc, List.range_succ_eq_map]
    simp only [List.length_append, List.length_singleton, getD_append_copied h0 h, List.map_cons,
      List.map_map, Nat.zero_mod, Nat.add_zero, List.singleton_append]
    rfl

/-! ### The effect of an element is its replay (R245, R249, R255) -/

section
variable {len : Nat} {out mid : List Byte}

theorem putLiteral_of_le {b : List Byte} (h : (out ++ b).length ≤ len) :
    putLiteral len b out = .ok (out ++ b) := by
  rw [putLiteral, if_neg (by rw [← List.length_append]; omega)]

theorem copyExec_of_replayCopy {offset n : Nat} (h : replayCopy out offset n = some mid)
    (hlen : mid.length ≤ len) : copyExec len offset n out = .ok mid := by
  unfold replayCopy at h
  split at h
  · next hoffset =>
    cases h
    rw [List.length_append, List.length_map, List.length_range] at hlen
    rw [copyExec, if_neg (by omega), if_neg (by omega), if_neg (by omega),
      copyBytes_eq hoffset.1 n hoffset.2]
  · cases h

theorem replayCopy_length_le {offset n : Nat} (h : replayCopy out offset n = some mid) :
    out.length ≤ mid.length := by
  unfold replayCopy at h
  split at h <;> cases h
  exact (List.prefix_append ..).length_le

end

/-- A replay runs its first element, whose effect is the same under any declared length that holds
the output, and then the others. -/
theorem replay_cons {i : Instr} {is : List Instr} {out src : List Byte}
    (h : replay (i :: is) out = some src) :
    ∃ mid, replay is mid = some src ∧ out.length ≤ mid.length ∧
      ∀ len, mid.length ≤ len → elementEffect len i out = .ok mid := by
  cases i with
  | lit b | litX1 b | litX2 b | litX3 b | litX4 b =>
    have hle : out.length ≤ (out ++ b).length := (List.prefix_append ..).length_le
    exact ⟨out ++ b, h, hle, fun _ => putLiteral_of_le⟩
  | copy1 offset n | copy2 offset n | copy4 offset n =>
    obtain ⟨mid, hcopy, hrest⟩ := Option.bind_eq_some_iff.mp h
    exact ⟨mid, hrest, replayCopy_length_le hcopy, fun _ => copyExec_of_replayCopy hcopy⟩
  | _ => cases h

theorem replay_length_le {is : List Instr} {out src : List Byte} (h : replay is out = some src) :
    out.length ≤ src.length := by
  induction is generalizing out with
  | nil => cases h; exact Nat.le_refl _
  | cons i is ih =>
    obtain ⟨mid, hrest, hle, -⟩ := replay_cons h
    exact hle.trans (ih hrest)

/-! ### DECOMPRESS of an encoded sequence (O18) -/

theorem encodeElem_length_pos {i : Instr} (hi : i.isElement = true) (hwf : i.wellFormed = true) :
    0 < (encodeElem i).length := by
  obtain ⟨-, -, hpos, -⟩ := decodeElem_ok (decodeElem_encodeElem hi hwf [])
  exact hpos

/-- The decode loop goes through an encoded element and its effect. -/
theorem decodeLoop_encodeElem {i : Instr} (hi : i.isElement = true) (hwf : i.wellFormed = true)
    {len : Nat} {out mid : List Byte} (heffect : elementEffect len i out = .ok mid) (fuel : Nat)
    (rest : List Byte) :
    decodeLoop len (fuel + 1) (encodeElem i ++ rest) out = decodeLoop len fuel rest mid := by
  have hne : encodeElem i ++ rest ≠ [] :=
    List.append_ne_nil_of_left_ne_nil (List.length_pos_iff.mp (encodeElem_length_pos hi hwf)) rest
  rw [decodeLoop, if_neg hne, decodeElem_encodeElem hi hwf]
  simp only [heffect, List.drop_left]

/-- DECODE_LOOP on an encoded sequence is its replay. -/
theorem decodeLoop_encodeElems {is : List Instr} {out src : List Byte}
    (his : ∀ i ∈ is, i.isElement = true ∧ i.wellFormed = true) (h : replay is out = some src)
    {fuel : Nat} (hfuel : (encodeElems is).length ≤ fuel) :
    decodeLoop src.length fuel (encodeElems is) out = .ok src := by
  induction is generalizing out fuel with
  | nil =>
    cases h
    cases fuel <;> simp [decodeLoop, encodeElems]
  | cons i is ih =>
    obtain ⟨⟨hi, hwf⟩, his⟩ := List.forall_mem_cons.mp his
    obtain ⟨mid, hrest, -, heffect⟩ := replay_cons h
    have hpos := encodeElem_length_pos hi hwf
    rw [encodeElems, List.flatMap_cons, List.length_append] at hfuel
    obtain ⟨fuel, rfl⟩ : ∃ m, fuel = m + 1 := ⟨fuel - 1, by omega⟩
    rw [encodeElems, List.flatMap_cons,
      decodeLoop_encodeElem hi hwf (heffect _ (replay_length_le hrest))]
    exact ih his hrest (by rw [encodeElems]; omega)

/-- The header of a stream within both limits is read back (R241, R242). -/
theorem decompressHeader_varintEncode {n : Nat} {cap : Word32} (hcap : n ≤ cap.toNat)
    (body : List Byte) :
    decompressHeader cap (varintEncode (BitVec.ofNat 64 n) ++ body) =
      .ok (n, (varintEncode (BitVec.ofNat 64 n)).length) := by
  have hlt : cap.toNat < 2 ^ 32 := cap.isLt
  have hn : (BitVec.ofNat 64 n).toNat = n := by
    rw [BitVec.toNat_ofNat, Nat.mod_eq_of_lt (by omega)]
  have hmax : ¬ n > Config.maxBlockLen := by
    simp only [Config.maxBlockLen]
    omega
  rw [decompressHeader, varintDecode_varintEncode]
  simp only [hn]
  rw [if_neg hmax, if_neg hcap.not_gt]

/-- Settles O18: the header gives the length of the bytes, and the decode loop is the replay. -/
theorem decompressReplaysElements : Obligations.DecompressReplaysElements := by
  intro is src cap his hreplay hcap
  rw [decompressed, decompressHeader_varintEncode hcap]
  simp only [List.drop_left]
  exact decodeLoop_encodeElems his hreplay (by rw [List.length_append]; omega)

end Sys2Proof.Machine

namespace Sys2Proof.Machine
open Sys2Proof.Spec

/-- Settles O7: the round trip of the loops, from the first byte. -/
theorem varintDecodeInvertsEncode : Obligations.VarintDecodeInvertsEncode :=
  varintDecode_varintEncode

/-! ### The groups of an encoded integer (R100, R150) -/

section
variable (n : Word64)

theorem group_toNat :
    ((0x80 : Byte) ||| (n.setWidth 7).setWidth 8).toNat = n.toNat % 128 + 128 := by
  have hlt : n.toNat % 128 < 2 ^ 7 := Nat.mod_lt _ (by decide)
  rw [BitVec.toNat_or, lastGroup_toNat, Nat.add_comm]
  exact (Nat.two_pow_add_eq_or_of_lt hlt 1).symm

theorem shiftRight_group_toNat : (n >>> 7).toNat = n.toNat / 128 := by
  rw [BitVec.toNat_ushiftRight, Nat.shiftRight_eq_div_pow]

theorem shiftRight_group_eq_zero_iff : n >>> 7 = 0 ↔ n.toNat < 128 := by
  rw [← BitVec.toNat_inj, shiftRight_group_toNat, BitVec.ofNat_eq_ofNat, BitVec.toNat_zero,
    Nat.div_eq_zero_iff_lt (by decide)]

end

section
variable {n : Word64} (fuel : Nat)

theorem varintEncodeLoop_of_lt (h : n.toNat < 128) :
    varintEncodeLoop (fuel + 1) n = [(n.setWidth 7).setWidth 8] :=
  if_neg (not_not.mpr ((shiftRight_group_eq_zero_iff n).mpr h))

theorem varintEncodeLoop_of_ge (h : 128 ≤ n.toNat) :
    varintEncodeLoop (fuel + 1) n =
      (0x80 ||| (n.setWidth 7).setWidth 8) :: varintEncodeLoop fuel (n >>> 7) :=
  if_pos (mt (shiftRight_group_eq_zero_iff n).mp h.not_gt)

theorem varintEncodeLoop_length_pos : 1 ≤ (varintEncodeLoop (fuel + 1) n).length := by
  rw [varintEncodeLoop]
  split <;> simp

end

/-- What holds of the rest of the value needs one group less. -/
theorem shiftRight_group_lt_iff {n : Word64} {k : Nat} :
    (n >>> 7).toNat < 2 ^ (7 * k) ↔ n.toNat < 2 ^ (7 * (k + 1)) := by
  rw [shiftRight_group_toNat, Nat.div_lt_iff_lt_mul (by decide), Nat.mul_succ 7, Nat.pow_add]

/-- With rounds enough for the value, the loop takes the least number of groups that hold it. -/
theorem varintEncodeLoop_length_le_iff {fuel k : Nat} {n : Word64}
    (hn : n.toNat < 2 ^ (7 * (fuel + 1))) :
    (varintEncodeLoop (fuel + 1) n).length ≤ k + 1 ↔ n.toNat < 2 ^ (7 * (k + 1)) := by
  induction fuel generalizing n k with
  | zero =>
    have hle : 2 ^ (7 * (0 + 1)) ≤ 2 ^ (7 * (k + 1)) := Nat.pow_le_pow_right (by decide) (by omega)
    rw [varintEncodeLoop_of_lt 0 hn]
    exact iff_of_true (by simp) (by omega)
  | succ fuel ih =>
    obtain hlt | hge := Nat.lt_or_ge n.toNat 128
    · have hle : 2 ^ 7 ≤ 2 ^ (7 * (k + 1)) := Nat.pow_le_pow_right (by decide) (by omega)
      rw [varintEncodeLoop_of_lt _ hlt]
      exact iff_of_true (by simp) (by omega)
    · rw [varintEncodeLoop_of_ge _ hge, List.length_cons, Nat.add_le_add_iff_right]
      cases k with
      | zero =>
        have := varintEncodeLoop_length_pos (n := n >>> 7) fuel
        exact iff_of_false (by omega) (by omega)
      | succ k => rw [ih (shiftRight_group_lt_iff.mpr hn), shiftRight_group_lt_iff]

theorem varintEncodeLoop_getD_of_lt {fuel i : Nat} {n : Word64} (hn : n.toNat < 128)
    (hi : i < (varintEncodeLoop (fuel + 1) n).length) :
    ((varintEncodeLoop (fuel + 1) n).getD i 0).toNat = n.toNat / 2 ^ (7 * i) % 128 +
      if i + 1 < (varintEncodeLoop (fuel + 1) n).length then 128 else 0 := by
  rw [varintEncodeLoop_of_lt fuel hn] at hi ⊢
  obtain rfl : i = 0 := Nat.lt_one_iff.mp hi
  rw [List.getD_cons_zero, lastGroup_toNat]
  simp

/-- With rounds enough for the value, the bytes are its groups, low group first, with the continuation
bit on all but the last. -/
theorem varintEncodeLoop_getD {fuel i : Nat} {n : Word64} (hn : n.toNat < 2 ^ (7 * (fuel + 1)))
    (hi : i < (varintEncodeLoop (fuel + 1) n).length) :
    ((varintEncodeLoop (fuel + 1) n).getD i 0).toNat = n.toNat / 2 ^ (7 * i) % 128 +
      if i + 1 < (varintEncodeLoop (fuel + 1) n).length then 128 else 0 := by
  induction fuel generalizing n i with
  | zero => exact varintEncodeLoop_getD_of_lt hn hi
  | succ fuel ih =>
    obtain hlt | hge := Nat.lt_or_ge n.toNat 128
    · exact varintEncodeLoop_getD_of_lt hlt hi
    · rw [varintEncodeLoop_of_ge _ hge] at hi ⊢
      cases i with
      | zero =>
        have := varintEncodeLoop_length_pos (n := n >>> 7) fuel
        rw [List.getD_cons_zero, group_toNat, List.length_cons, if_pos (by omega)]
        simp
      | succ i =>
        rw [List.length_cons, Nat.add_lt_add_iff_right] at hi
        rw [List.getD_cons_succ, ih (shiftRight_group_lt_iff.mpr hn) hi, shiftRight_group_toNat,
          Nat.div_div_eq_div_mul, List.length_cons, Nat.mul_succ, Nat.add_comm (7 * i), Nat.pow_add]
        simp only [Nat.add_lt_add_iff_right]

section
variable (n : Word64)

theorem toNat_lt_ten_groups : n.toNat < 2 ^ (7 * (9 + 1)) :=
  Nat.lt_trans n.isLt (by decide)

theorem varintEncode_length_pos : 1 ≤ (varintEncode n).length :=
  varintEncodeLoop_length_pos 9

/-- An encoded integer has the least number of groups, at least one, that hold it. -/
theorem varintEncode_length_le_iff {k : Nat} (hk : 1 ≤ k) :
    (varintEncode n).length ≤ k ↔ n.toNat < 2 ^ (7 * k) := by
  obtain ⟨k, rfl⟩ := Nat.exists_eq_add_of_le' hk
  exact varintEncodeLoop_length_le_iff (toNat_lt_ten_groups n)

theorem toNat_lt_varintEncode_length : n.toNat < 2 ^ (7 * (varintEncode n).length) :=
  (varintEncode_length_le_iff n (varintEncode_length_pos n)).mp le_rfl

theorem varintEncode_length_le_ten : (varintEncode n).length ≤ 10 :=
  (varintEncode_length_le_iff n (by decide)).mpr (toNat_lt_ten_groups n)

end

/-- Settles O8: the least number of groups is the canonical form, since one group less does not hold
the value. -/
theorem varintEncodeGivesCanonicalGroups : Obligations.VarintEncodeGivesCanonicalGroups := by
  intro n s
  refine ⟨varintEncode n, _, rfl, oneShotOk_complete .., varintEncode_length_pos n,
    varintEncode_length_le_ten n, toNat_lt_varintEncode_length n, ?_,
    fun i hi => varintEncodeLoop_getD (toNat_lt_ten_groups n) hi⟩
  have hpos := varintEncode_length_pos n
  refine or_iff_not_imp_left.mpr fun hne => Nat.not_lt.mp fun hlt => ?_
  have := (varintEncode_length_le_iff n (by omega)).mpr hlt
  omega

/-- Settles O9: each breakpoint is the least number of groups at that bound. -/
theorem varintLengthBreakpoints : Obligations.VarintLengthBreakpoints := by
  refine ⟨fun n hn => ?_, fun n hn => ⟨toNat_lt_varintEncode_length n, fun k hk => ?_⟩,
    fun n hn => ?_, rfl, fun n hn => ?_⟩
  · exact Nat.le_antisymm ((varintEncode_length_le_iff n le_rfl).mpr hn) (varintEncode_length_pos n)
  · have hpos : 1 ≤ k := Nat.pos_of_ne_zero (by rintro rfl; omega)
    exact (varintEncode_length_le_iff n hpos).mpr hk
  · have hnine := mt (varintEncode_length_le_iff n (k := 9) (by decide)).mp hn.not_gt
    have := varintEncode_length_le_ten n
    omega
  · exact (varintEncode_length_le_iff n (by decide)).mpr (Nat.lt_of_le_of_lt hn (by decide))

/-! ### The value of the groups read (R152, R153) -/

theorem continues_iff_getLsbD (b : Byte) : continues b ↔ b.getLsbD 7 = true := by
  rw [← BitVec.msb_eq_getLsbD_last, BitVec.msb_eq_decide, decide_eq_true_iff]
  rfl

theorem groupValue_append_singleton (bs : List Byte) (b : Byte) :
    groupValue (bs ++ [b]) = groupValue bs + 2 ^ (7 * bs.length) * (b.toNat % 128) := by
  induction bs with
  | nil => simp [groupValue]
  | cons x xs ih =>
    rw [List.cons_append, groupValue, ih, groupValue, List.length_cons, Nat.mul_succ,
      Nat.add_comm (7 * xs.length), Nat.pow_add]
    ring

theorem groupValue_lt (bs : List Byte) : groupValue bs < 2 ^ (7 * bs.length) := by
  induction bs with
  | nil => simp [groupValue]
  | cons x xs ih =>
    rw [groupValue, List.length_cons, Nat.mul_succ, Nat.add_comm (7 * xs.length), Nat.pow_add]
    omega

/-- One group more sets bits above those of the groups before. -/
theorem ofNat_groupValue_append_singleton (bs : List Byte) (b : Byte) :
    BitVec.ofNat 64 (groupValue (bs ++ [b])) =
      BitVec.ofNat 64 (groupValue bs) ||| (b.setWidth 7).setWidth 64 <<< (7 * bs.length) := by
  have hor : groupValue (bs ++ [b]) = (b.toNat % 128) <<< (7 * bs.length) ||| groupValue bs := by
    rw [groupValue_append_singleton, ← Nat.shiftLeft_add_eq_or_of_lt (groupValue_lt bs),
      Nat.shiftLeft_eq, Nat.add_comm, Nat.mul_comm]
  have hgroup : BitVec.ofNat 64 ((b.toNat % 128) <<< (7 * bs.length)) =
      (b.setWidth 7).setWidth 64 <<< (7 * bs.length) := by
    refine BitVec.eq_of_toNat_eq ?_
    rw [BitVec.toNat_ofNat, BitVec.toNat_shiftLeft, BitVec.toNat_setWidth_of_le (by decide),
      BitVec.toNat_setWidth]
  rw [hor, BitVec.ofNat_or, BitVec.or_comm, hgroup]

/-! ### What VARINT_DECODE answers (R152, R153) -/

section
variable {bs : List Byte} (hbs : ∀ b ∈ bs, continues b)
include hbs

/-- The groups that continue are read, and the loop goes on behind them. -/
theorem varintDecode_continuing (hlen : bs.length ≤ 9) (rest : List Byte) :
    varintDecode (bs ++ rest) =
      varintDecodeLoop bs.length (BitVec.ofNat 64 (groupValue bs)) rest := by
  induction bs using List.reverseRecOn generalizing rest with
  | nil => rfl
  | append_singleton bs b ih =>
    rw [List.forall_mem_append, List.forall_mem_singleton, continues_iff_getLsbD] at hbs
    obtain ⟨hbs, hb⟩ := hbs
    rw [List.length_append, List.length_singleton] at hlen ⊢
    rw [List.append_assoc, List.singleton_append, ih hbs (by omega), varintDecodeLoop,
      if_neg (by omega)]
    simp only [hb, Bool.true_eq_false, if_false, ofNat_groupValue_append_singleton]

/-- The first byte without a continuation bit ends the decode with the value of the groups. -/
theorem varintDecode_ends {b : Byte} (hb : ¬ continues b) (hlen : bs.length ≤ 9)
    (htenth : bs.length = 9 → b.toNat ≤ 1) (rest : List Byte) :
    varintDecode (bs ++ b :: rest) =
      .ok (BitVec.ofNat 64 (groupValue (bs ++ [b])), bs.length + 1) := by
  rw [continues_iff_getLsbD, Bool.not_eq_true] at hb
  rw [varintDecode_continuing hbs hlen, varintDecodeLoop, if_neg (by omega)]
  simp only [hb, if_true, ofNat_groupValue_append_singleton]

theorem varintDecode_truncated (hlen : bs.length ≤ 9) :
    varintDecode bs = .error .varintTruncated := by
  simpa [varintDecodeLoop] using varintDecode_continuing hbs hlen []

theorem varintDecode_overflows {b : Byte} (hlen : bs.length = 9) (hb : 2 ≤ b.toNat)
    (rest : List Byte) : varintDecode (bs ++ b :: rest) = .error .varintOverflow := by
  rw [varintDecode_continuing hbs hlen.le, varintDecodeLoop, if_pos ⟨hlen, hb⟩]

end

/-- Groups that the decoder accepts fit 64 bits: a tenth one is at most 1. -/
theorem groupValue_append_singleton_lt {bs : List Byte} {b : Byte} (hlen : bs.length ≤ 9)
    (htenth : bs.length = 9 → b.toNat ≤ 1) : groupValue (bs ++ [b]) < 2 ^ 64 := by
  obtain hlt | heq := Nat.lt_or_eq_of_le hlen
  · refine (groupValue_lt _).trans_le (Nat.pow_le_pow_right (by decide) ?_)
    rw [List.length_append, List.length_singleton]
    omega
  · have hbs := groupValue_lt bs
    have hb := htenth heq
    rw [groupValue_append_singleton]
    rw [heq] at hbs ⊢
    omega

section
variable {src : List Byte} {s : State}

theorem exec_varintDecode_of_ok {n : Word64} {k : Nat} (h : varintDecode src = .ok (n, k)) :
    exec (.varintDecode src) s = .next (complete 0x02 (.varint n (BitVec.ofNat 8 k)) s) := by
  rw [exec, execVarintDecode, h]

theorem exec_varintDecode_of_error {c : Cause} (h : varintDecode src = .error c) :
    exec (.varintDecode src) s = .next (raise 0x02 c s) := by
  rw [exec, execVarintDecode, h]

theorem take_append_getD_cons_drop {k : Nat} (hk : k < src.length) :
    src.take k ++ src.getD k 0 :: src.drop (k + 1) = src := by
  rw [List.getD_eq_getElem _ _ hk, ← List.drop_eq_getElem_cons hk, List.take_append_drop]

theorem continues_of_mem_take {k : Nat} (h : ∀ j < k, continues (src.getD j 0)) :
    ∀ b ∈ src.take k, continues b := by
  intro b hb
  obtain ⟨j, hj, rfl⟩ := List.mem_take_iff_getElem.mp hb
  obtain ⟨hjk, hjlen⟩ := Nat.lt_min.mp hj
  exact List.getD_eq_getElem src 0 hjlen ▸ h j hjk

end

/-- Settles O10: each clause cuts the input behind the groups that continue. -/
theorem varintDecodeReadsGroups : Obligations.VarintDecodeReadsGroups := by
  intro src s
  refine ⟨fun k hk hlen hcont hend htenth => ?_, fun hlen hcont => ?_, fun hlen hcont hb => ?_⟩
  · have htake : (src.take k).length = k := List.length_take_of_le hlen.le
    have hle : (src.take k).length ≤ 9 := by omega
    have hlast : (src.take k).length = 9 → (src.getD k 0).toNat ≤ 1 := by
      rw [htake]
      rintro rfl
      exact htenth rfl
    have hdec := varintDecode_ends (continues_of_mem_take hcont) hend hle hlast (src.drop (k + 1))
    rw [take_append_getD_cons_drop hlen, htake] at hdec
    refine ⟨_, _, exec_varintDecode_of_ok hdec, ?_, oneShotOk_complete ..⟩
    rw [BitVec.toNat_ofNat, Nat.mod_eq_of_lt (groupValue_append_singleton_lt hle hlast),
      List.take_add_one, List.getD_eq_getElem _ _ hlen, List.getElem?_eq_getElem hlen,
      Option.toList_some]
  · exact ⟨_, exec_varintDecode_of_error (varintDecode_truncated hcont (by omega)),
      oneShotError_raise rfl rfl⟩
  · have hdec := varintDecode_overflows (continues_of_mem_take hcont)
      (List.length_take_of_le (by omega)) hb (src.drop 10)
    rw [take_append_getD_cons_drop hlen] at hdec
    exact ⟨_, exec_varintDecode_of_error hdec, oneShotError_raise rfl rfl⟩

end Sys2Proof.Machine

namespace Sys2Proof.Machine
open Sys2Proof.Spec

/-! ### A long copy in pieces (R201 to R205, O23) -/

section
variable {offset : Nat} {out : List Byte} (h0 : 1 ≤ offset) (h : offset ≤ out.length)
include h0 h

theorem copyBytes_succ (n : Nat) : copyBytes offset (n + 1) out =
    copyBytes offset n (out ++ [out.getD (out.length - offset) 0]) := by
  have hlt : out.length - offset < out.length := by omega
  rw [copyBytes, if_pos h, List.getElem?_eq_getElem hlt, List.getD_eq_getElem _ _ hlt]

/-- Copying on at the same distance continues the copy. -/
theorem copyBytes_add (a b : Nat) :
    copyBytes offset (a + b) out = copyBytes offset b (copyBytes offset a out) := by
  induction a generalizing out with
  | zero => rw [Nat.zero_add, copyBytes]
  | succ a ih =>
    have hle : offset ≤ (out ++ [out.getD (out.length - offset) 0]).length :=
      h.trans (List.prefix_append ..).length_le
    rw [Nat.add_right_comm, copyBytes_succ h0 h, copyBytes_succ h0 h, ih hle]

/-- A valid copy is the byte-serial loop's (R249, R255). -/
theorem replayCopy_of_valid (n : Nat) :
    replayCopy out offset n = some (copyBytes offset n out) := by
  rw [replayCopy, if_pos ⟨h0, h⟩, copyBytes_eq h0 n h]

theorem replayCopy_add (a b : Nat) : replayCopy out offset (a + b) =
    (replayCopy out offset a).bind fun mid => replayCopy mid offset b := by
  have hle : offset ≤ (copyBytes offset a out).length :=
    h.trans (copyBytes_extends offset a out).length_le
  rw [replayCopy_of_valid h0 h, replayCopy_of_valid h0 h, Option.bind_some,
    replayCopy_of_valid h0 hle, copyBytes_add h0 h]

end

section
variable {offset l : Nat}

/-- A piece too long for Copy1 has the form of a last piece of its length (R204). -/
theorem copyPiece_of_long (h : 11 < l) : copyPiece offset l = lastPiece offset l := by
  rw [lastPiece, if_neg (by omega)]

/-- The form of a piece of each length and distance (R201 to R204). -/
theorem lastPiece_eq : lastPiece offset l =
    if l ≤ 11 ∧ offset ≤ 2047 then .copy1 offset l
    else if offset ≤ 65535 then .copy2 offset l else .copy4 offset l := by
  rw [lastPiece, copyPiece]
  split
  · rfl
  · split
    · rw [if_neg (by omega)]
    · rw [if_pos (by omega)]

/-- A piece is one of the copy forms. -/
theorem lastPiece_mem :
    lastPiece offset l ∈ [Instr.copy1 offset l, .copy2 offset l, .copy4 offset l] := by
  rw [lastPiece_eq]
  split
  · simp
  · split <;> simp

theorem lastPiece_wellFormed (hoffset : offset ≤ 4294967295) (hl : 4 ≤ l ∧ l ≤ 64) :
    (lastPiece offset l).wellFormed = true := by
  rw [lastPiece_eq]
  split
  · exact decide_eq_true (by omega)
  · split <;> exact decide_eq_true (by omega)

/-- Within 64 KiB a piece takes at most three bytes (R104, R105). -/
theorem encodeElem_lastPiece_length_le (hoffset : offset ≤ 65535) :
    (encodeElem (lastPiece offset l)).length ≤ 3 := by
  rw [lastPiece_eq, if_pos hoffset]
  split
  · exact Nat.le_succ 2
  · exact le_rfl

theorem replay_lastPiece (is : List Instr) (out : List Byte) :
    replay (lastPiece offset l :: is) out = (replayCopy out offset l).bind (replay is) := by
  have hmem := lastPiece_mem (offset := offset) (l := l)
  simp only [List.mem_cons, List.not_mem_nil, or_false] at hmem
  obtain h | h | h := hmem <;> rw [h, replay]

end

theorem emitCopyLoop_pieces (offset : Nat) {fuel len : Nat} (hlen : 4 ≤ len) (hfuel : len ≤ fuel) :
    ∃ ls : List Nat, emitCopyLoop offset fuel len = ls.map (lastPiece offset) ∧ ls.sum = len ∧
      ∀ l ∈ ls, 4 ≤ l ∧ l ≤ 64 := by
  induction fuel generalizing len with
  | zero => omega
  | succ fuel ih =>
    rw [emitCopyLoop]
    split
    · obtain ⟨ls, hls, hsum, hl⟩ := ih (len := len - 64) (by omega) (by omega)
      refine ⟨64 :: ls, ?_, by rw [List.sum_cons]; omega, List.forall_mem_cons.mpr ⟨by omega, hl⟩⟩
      rw [hls, copyPiece_of_long (by decide), List.map_cons]
    · split
      · refine ⟨[60, len - 60], ?_, by simp; omega, by simp; omega⟩
        rw [copyPiece_of_long (by decide), List.map_cons, List.map_singleton]
      · exact ⟨[len], rfl, List.sum_singleton, by simp; omega⟩

/-- EMIT_COPY cuts its length into pieces of 4 to 64 bytes (R205). -/
theorem emitCopy_pieces (offset : Nat) {len : Nat} (hlen : 4 ≤ len) :
    ∃ ls : List Nat, emitCopy offset len = ls.map (lastPiece offset) ∧ ls.sum = len ∧
      ∀ l ∈ ls, 4 ≤ l ∧ l ≤ 64 :=
  emitCopyLoop_pieces offset hlen le_rfl

/-- Pieces at one distance reproduce the copy of their whole length. -/
theorem replay_pieces {offset : Nat} (h0 : 1 ≤ offset) (ls : List Nat) {out : List Byte}
    (h : offset ≤ out.length) :
    replay (ls.map (lastPiece offset)) out = replayCopy out offset ls.sum := by
  induction ls generalizing out with
  | nil => rw [replayCopy_of_valid h0 h]; rfl
  | cons l ls ih =>
    have hle : offset ≤ (copyBytes offset l out).length :=
      h.trans (copyBytes_extends offset l out).length_le
    rw [List.map_cons, replay_lastPiece, List.sum_cons, replayCopy_add h0 h,
      replayCopy_of_valid h0 h, Option.bind_some, Option.bind_some, ih hle]

theorem replay_emitCopy {offset len : Nat} {out : List Byte} (hlen : 4 ≤ len) (h0 : 1 ≤ offset)
    (h : offset ≤ out.length) : replay (emitCopy offset len) out = replayCopy out offset len := by
  obtain ⟨ls, hls, hsum, -⟩ := emitCopy_pieces offset hlen
  rw [hls, replay_pieces h0 ls h, hsum]

/-- Settles O23: the pieces' lengths add up to the copy's. -/
theorem longCopySplitsIntoPieces : Obligations.LongCopySplitsIntoPieces := by
  intro offset len out hlen h0 hoffset h
  refine ⟨fun i hi => ?_, replay_emitCopy hlen h0 h⟩
  obtain ⟨ls, hls, -, hpieces⟩ := emitCopy_pieces offset hlen
  rw [hls] at hi
  obtain ⟨l, hl, rfl⟩ := List.mem_map.mp hi
  obtain ⟨hmin, hmax⟩ := hpieces l hl
  exact ⟨lastPiece_wellFormed hoffset ⟨hmin, hmax⟩, l, hmin, hmax, lastPiece_eq⟩

end Sys2Proof.Machine

namespace Sys2Proof.Machine
open Sys2Proof.Spec

/-! ### Element sequences that write bytes (R101, R111, R255) -/

/-- Well-formed elements that produce `out'` when replayed after `out`. -/
structure Writes (is : List Instr) (out out' : List Byte) : Prop where
  elements : ∀ i ∈ is, i.isElement = true ∧ i.wellFormed = true
  replays : replay is out = some out'

theorem replay_append (is js : List Instr) (out : List Byte) :
    replay (is ++ js) out = (replay is out).bind (replay js) := by
  induction is generalizing out with
  | nil => rfl
  | cons i is ih =>
    cases i with
    | lit b | litX1 b | litX2 b | litX3 b | litX4 b => exact ih (out ++ b)
    | copy1 offset n | copy2 offset n | copy4 offset n =>
      simp only [List.cons_append, replay, Option.bind_assoc]
      exact congrArg _ (funext ih)
    | _ => rfl

theorem encodeElems_cons (i : Instr) (is : List Instr) :
    encodeElems (i :: is) = encodeElem i ++ encodeElems is :=
  List.flatMap_cons

theorem encodeElems_append (is js : List Instr) :
    encodeElems (is ++ js) = encodeElems is ++ encodeElems js :=
  List.flatMap_append

theorem encodeElems_singleton (i : Instr) : encodeElems [i] = encodeElem i :=
  List.flatMap_singleton ..

namespace Writes
variable {is js : List Instr} {out mid out' : List Byte}

theorem nil (out : List Byte) : Writes [] out out := ⟨List.forall_mem_nil _, rfl⟩

theorem append (h : Writes is out mid) (h' : Writes js mid out') : Writes (is ++ js) out out' :=
  ⟨List.forall_mem_append.mpr ⟨h.elements, h'.elements⟩,
    by rw [replay_append, h.replays, Option.bind_some, h'.replays]⟩

end Writes

/-! ### Literals and copies of the tag writer (R200, R205) -/

section
variable {b : List Byte}

/-- `Literal(b)` is one of the literal forms. -/
theorem literalInstr_mem :
    literalInstr b ∈ [Instr.lit b, .litX1 b, .litX2 b, .litX3 b, .litX4 b] := by
  unfold literalInstr
  iterate 4 (split; · simp)
  simp

theorem literalInstr_wellFormed (hpos : 1 ≤ b.length) (hlen : b.length ≤ 4294967296) :
    (literalInstr b).wellFormed = true := by
  unfold literalInstr
  split
  · next h => exact decide_eq_true ⟨hpos, h⟩
  iterate 3
    split
    · next h => exact literalFits_iff.mpr ⟨hpos, h⟩
  exact literalFits_iff.mpr ⟨hpos, hlen⟩

/-- The narrowest length field takes a byte more than a seventh of the literal at most. -/
theorem encodeElem_literalInstr_length_lt (hpos : 1 ≤ b.length) :
    7 * (encodeElem (literalInstr b)).length < 8 * b.length + 7 := by
  rw [encodeElem_length (literal_effect literalInstr_mem).1]
  unfold literalInstr
  iterate 4 (split; · rw [Instr.size]; omega)
  rw [Instr.size]
  omega

theorem literalInstr_writes (hpos : 1 ≤ b.length) (hlen : b.length ≤ 4294967296)
    (out : List Byte) : Writes [literalInstr b] out (out ++ b) := by
  have hmem := literalInstr_mem (b := b)
  refine ⟨List.forall_mem_singleton.mpr
    ⟨(literal_effect hmem).1, literalInstr_wellFormed hpos hlen⟩, ?_⟩
  simp only [List.mem_cons, List.not_mem_nil, or_false] at hmem
  obtain h | h | h | h | h := hmem <;> rw [h] <;> rfl

end

section
variable {offset len : Nat} {out out' : List Byte}

theorem emitCopy_writes (hlen : 4 ≤ len) (h0 : 1 ≤ offset) (hoffset : offset ≤ 4294967295)
    (h : replayCopy out offset len = some out') : Writes (emitCopy offset len) out out' := by
  have hle : offset ≤ out.length := by
    unfold replayCopy at h
    split at h
    · next hvalid => exact hvalid.2
    · cases h
  refine ⟨fun i hi => ?_, (replay_emitCopy hlen h0 hle).trans h⟩
  obtain ⟨ls, hls, -, hpieces⟩ := emitCopy_pieces offset hlen
  rw [hls] at hi
  obtain ⟨l, hl, rfl⟩ := List.mem_map.mp hi
  exact ⟨(copy_effect lastPiece_mem).1, lastPiece_wellFormed hoffset (hpieces l hl)⟩

theorem encodeElems_pieces_length_le (hoffset : offset ≤ 65535) {ls : List Nat}
    (h : ∀ l ∈ ls, 4 ≤ l ∧ l ≤ 64) :
    (encodeElems (ls.map (lastPiece offset))).length + ls.length ≤ ls.sum := by
  induction ls with
  | nil => exact le_rfl
  | cons l ls ih =>
    obtain ⟨hl, hls⟩ := List.forall_mem_cons.mp h
    have hpiece := encodeElem_lastPiece_length_le (l := l) hoffset
    have hrest := ih hls
    rw [List.map_cons, encodeElems_cons, List.length_append, List.length_cons, List.sum_cons]
    omega

/-- Within 64 KiB a copy takes at least a byte less than it writes. -/
theorem encodeElems_emitCopy_length_lt (hlen : 4 ≤ len) (hoffset : offset ≤ 65535) :
    (encodeElems (emitCopy offset len)).length < len := by
  obtain ⟨ls, hls, hsum, hpieces⟩ := emitCopy_pieces offset hlen
  have hsize := encodeElems_pieces_length_le hoffset hpieces
  have hne : ls ≠ [] := by
    rintro rfl
    rw [List.sum_nil] at hsum
    omega
  have := List.length_pos_iff.mpr hne
  rw [hls]
  omega

end

/-! ### The size of what is emitted (R199) -/

/-- The elements write `out'` after `out`, and take at most a seventh more bytes than they write, and
`slack` sevenths of a byte. -/
structure Emits (slack : Nat) (is : List Instr) (out out' : List Byte) : Prop
    extends Writes is out out' where
  size : 7 * (encodeElems is).length + 8 * out.length ≤ 8 * out'.length + slack

namespace Emits
variable {is : List Instr} {out mid : List Byte}

theorem nil (out : List Byte) : Emits 0 [] out out :=
  ⟨.nil out, by rw [encodeElems, List.flatMap_nil, List.length_nil]; omega⟩

theorem weaken (h : Emits 0 is out mid) : Emits 7 is out mid :=
  ⟨h.toWrites, h.size.trans (Nat.le_add_right ..)⟩

/-- A literal uses the slack up. -/
theorem literal {b : List Byte} (h : Emits 0 is out mid) (hpos : 1 ≤ b.length)
    (hlen : b.length ≤ 4294967296) : Emits 7 (is ++ [literalInstr b]) out (mid ++ b) := by
  refine ⟨h.append (literalInstr_writes hpos hlen mid), ?_⟩
  have hsize := h.size
  have hliteral := encodeElem_literalInstr_length_lt hpos
  rw [encodeElems_append, encodeElems_singleton, List.length_append, List.length_append]
  omega

/-- A copy makes good what a literal before it used up. -/
theorem copy {offset len : Nat} {out' : List Byte} (h : Emits 7 is out mid) (hlen : 4 ≤ len)
    (h0 : 1 ≤ offset) (hoffset : offset ≤ 65535) (hcopy : replayCopy mid offset len = some out') :
    Emits 0 (is ++ emitCopy offset len) out out' := by
  refine ⟨h.append (emitCopy_writes hlen h0 (by omega) hcopy), ?_⟩
  have hsize := h.size
  have hpieces := encodeElems_emitCopy_length_lt hlen hoffset
  have hout' : out'.length = mid.length + len := by
    unfold replayCopy at hcopy
    split at hcopy <;> cases hcopy
    rw [List.length_append, List.length_map, List.length_range]
  rw [encodeElems_append, List.length_append]
  omega

end Emits

end Sys2Proof.Machine

namespace Sys2Proof.Machine
open Sys2Proof.Spec

/-! ### The bytes REF compares (R190, R194) -/

theorem leValue_drop (j : Nat) (x : List Byte) : leValue (x.drop j) = leValue x / 256 ^ j := by
  induction j generalizing x with
  | zero => simp
  | succ j ih =>
    cases x with
    | nil => simp [leValue]
    | cons b x =>
      have hb := b.isLt
      have hrest : (b.toNat + 256 * leValue x) / 256 = leValue x := by omega
      rw [List.drop_succ_cons, ih, leValue, Nat.pow_succ', ← Nat.div_div_eq_div_mul, hrest]

theorem leValue_take (k : Nat) (x : List Byte) : leValue (x.take k) = leValue x % 256 ^ k := by
  induction k generalizing x with
  | zero => simp [leValue, Nat.mod_one]
  | succ k ih =>
    cases x with
    | nil => simp [leValue]
    | cons b x =>
      have hb := b.isLt
      have hlow : (b.toNat + 256 * leValue x) % 256 = b.toNat := by omega
      have hrest : (b.toNat + 256 * leValue x) / 256 = leValue x := by omega
      rw [List.take_succ_cons, leValue, ih, leValue, Nat.pow_succ', Nat.mod_mul, hlow, hrest]

/-- Sequences of one length with one value are the same (R17). -/
theorem eq_of_leValue_eq {x y : List Byte} (hlen : x.length = y.length)
    (h : leValue x = leValue y) : x = y := by
  rw [← leBytes_leValue x, ← leBytes_leValue y, hlen, h]

/-- Equal shingles are equal bytes. -/
theorem take_drop_eq_of_load32_eq {b : List Byte} {p q : Nat} (hp : p + 4 ≤ b.length)
    (hq : q + 4 ≤ b.length) (h : load32 b p = load32 b q) :
    (b.drop p).take 4 = (b.drop q).take 4 := by
  refine eq_of_leValue_eq ?_ h
  rw [List.length_take_of_le (by rw [List.length_drop]; omega),
    List.length_take_of_le (by rw [List.length_drop]; omega)]

/-- The shingle one byte into the eight bytes at `p` (R196). -/
theorem load64_shingle (b : List Byte) (p : Nat) :
    load64 b p / 2 ^ 8 % 2 ^ 32 = load32 b (p + 1) := by
  rw [load64, show 2 ^ 8 = 256 ^ 1 by decide, ← leValue_drop, show 2 ^ 32 = 256 ^ 4 by decide,
    ← leValue_take, List.drop_take, List.take_take, List.drop_drop]
  rfl

theorem take_commonLength (x y : List Byte) :
    x.take (commonLength x y) = y.take (commonLength x y) := by
  induction x generalizing y with
  | nil => simp [commonLength]
  | cons b x ih =>
    cases y with
    | nil => rfl
    | cons c y =>
      rw [commonLength]
      split
      · next h => rw [List.take_succ_cons, List.take_succ_cons, h, ih]
      · rfl

theorem commonLength_le (x y : List Byte) : commonLength x y ≤ x.length := by
  induction x generalizing y with
  | nil => simp [commonLength]
  | cons b x ih =>
    cases y with
    | nil => exact Nat.zero_le _
    | cons c y =>
      rw [commonLength]
      split
      · exact Nat.succ_le_succ (ih y)
      · exact Nat.zero_le _

section
variable {b : List Byte} {r : EncoderRegs}

theorem shingle_le_refMatchLength : 4 ≤ refMatchLength b r := Nat.le_add_right ..

theorem add_refMatchLength_le (h : r.s + 4 ≤ b.length) :
    r.s + refMatchLength b r ≤ b.length := by
  have hle := commonLength_le (b.drop (r.s + 4)) (b.drop (r.cand + 4))
  rw [List.length_drop] at hle
  simp only [refMatchLength, Config.shingle]
  omega

/-- The bytes of a match are those from the candidate on (R194). -/
theorem take_refMatchLength (hs : r.s + 4 ≤ b.length) (hcand : r.cand < r.s)
    (h : load32 b r.s = load32 b r.cand) :
    (b.drop r.s).take (refMatchLength b r) = (b.drop r.cand).take (refMatchLength b r) := by
  simp only [refMatchLength, Config.shingle]
  rw [List.take_add, List.take_add, take_drop_eq_of_load32_eq hs (by omega) h, List.drop_drop,
    List.drop_drop, take_commonLength]

end

/-! ### A match as a copy (R194, R255) -/

/-- Where each byte of `w` from `p` on repeats the one `offset` before, the copy loop goes on with
`w`. -/
theorem copyBytes_take {w : List Byte} {offset p n : Nat} (h0 : 1 ≤ offset) (hp : offset ≤ p)
    (hn : p + n ≤ w.length) (h : ∀ i < n, w[p + i]? = w[p - offset + i]?) :
    copyBytes offset n (w.take p) = w.take (p + n) := by
  induction n generalizing p with
  | zero => rfl
  | succ n ih =>
    have hlen : (w.take p).length = p := List.length_take_of_le (by omega)
    have hnext : w[p]? = w[p - offset]? := h 0 n.succ_pos
    have hbyte : w.take p ++ [(w.take p).getD (p - offset) 0] = w.take (p + 1) := by
      rw [List.take_add_one, hnext, List.getD_eq_getElem?_getD, List.getElem?_take_of_lt (by omega),
        List.getElem?_eq_getElem (by omega)]
      rfl
    rw [copyBytes_succ h0 (by omega), hlen, hbyte, Nat.add_comm n, ← Nat.add_assoc]
    refine ih (by omega) (by omega) fun i hi => ?_
    have := h (i + 1) (by omega)
    rwa [Nat.add_comm i, ← Nat.add_assoc, ← Nat.add_assoc, ← Nat.sub_add_comm hp] at this

/-- Bytes of a block that repeat those from `c` on are a copy at the distance between the two. -/
theorem replayCopy_of_repeats {pre b : List Byte} {c p n : Nat} (hc : c < p)
    (hn : p + n ≤ b.length) (h : (b.drop p).take n = (b.drop c).take n) :
    replayCopy (pre ++ b.take p) (p - c) n = some (pre ++ b.take (p + n)) := by
  have hlen : (pre ++ b.take p).length = pre.length + p := by
    rw [List.length_append, List.length_take_of_le (by omega)]
  have htake (m : Nat) : (pre ++ b).take (pre.length + m) = pre ++ b.take m :=
    List.take_length_add_append ..
  rw [replayCopy_of_valid (by omega) (by omega), ← htake, ← htake, ← Nat.add_assoc,
    copyBytes_take (by omega) (by omega) (by rw [List.length_append]; omega)]
  intro i hi
  have hbyte := congrArg (·[i]?) h
  simp only [List.getElem?_take_of_lt hi, List.getElem?_drop] at hbyte
  rw [List.getElem?_append_right (by omega), List.getElem?_append_right (by omega),
    show pre.length + p + i - pre.length = p + i by omega,
    show pre.length + p - (p - c) + i - pre.length = c + i by omega, hbyte]

/-! ### The positions in the hash table (R189, R192, R196) -/

/-- Every position the table holds is before `p`. -/
def PositionsBelow (p : Nat) (t : HashTable) : Prop := ∀ e ∈ t, e.2.toNat < p

theorem PositionsBelow.read {p : Nat} {t : HashTable} (ht : PositionsBelow p t) (hp : 0 < p)
    (h : Nat) : (htRead t h).toNat < p := by
  induction t with
  | nil => exact hp
  | cons e t ih =>
    obtain ⟨he, ht⟩ := List.forall_mem_cons.mp ht
    rw [htRead]
    split
    · exact he
    · exact ih ht

theorem PositionsBelow.write {p q v : Nat} {t : HashTable} (ht : PositionsBelow p t)
    (hpq : p ≤ q) (hv : v < q) (h : Nat) :
    PositionsBelow q (htWrite t h (BitVec.ofNat 16 v)) := by
  intro e he
  obtain rfl | he := mem_htWrite he
  · rw [BitVec.toNat_ofNat]
    exact (Nat.mod_le ..).trans_lt hv
  · exact (ht e he).trans_le hpq

end Sys2Proof.Machine

namespace Sys2Proof.Machine
open Sys2Proof.Spec

/-! ### REF_BLOCK writes its block (R191 to R197) -/

section
variable (b pre : List Byte)

/-- REF_BLOCK's loop is at SEARCH with the next probe at `p`: what is emitted writes the block up to
`nextEmit`, the table holds positions before `p`, and the rounds left suffice. -/
structure Searching (fuel p : Nat) (r : EncoderRegs) (out : List Instr) : Prop where
  fuel : b.length < fuel + p
  sLimit : r.sLimit = b.length - 15
  skip : 32 ≤ r.skip
  pos : r.nextEmit < p
  positions : PositionsBelow p r.ht
  emits : Emits 0 out pre (pre ++ b.take r.nextEmit)

/-- REF_BLOCK's loop is at MATCH: what is emitted writes the block up to `s`, whose shingle is that of
the candidate before it, and the rounds left suffice. -/
structure Matched (fuel : Nat) (r : EncoderRegs) (out : List Instr) : Prop where
  fuel : b.length ≤ fuel + r.s
  sLimit : r.sLimit = b.length - 15
  within : r.s + 4 ≤ b.length
  cand : r.cand < r.s
  agrees : load32 b r.s = load32 b r.cand
  positions : PositionsBelow (r.s + 1) r.ht
  emits : Emits 7 out pre (pre ++ b.take r.s)

/-- A copy has just written the block up to `s`, where the next literal begins; the table holds
positions before `s`. -/
structure Copied (fuel : Nat) (r : EncoderRegs) (out : List Instr) : Prop where
  fuel : b.length ≤ fuel + r.s
  sLimit : r.sLimit = b.length - 15
  nextEmit : r.nextEmit = r.s
  pos : 0 < r.s
  positions : PositionsBelow r.s r.ht
  emits : Emits 0 out pre (pre ++ b.take r.nextEmit)

/-- Where the loop stands. -/
def RefInv (fuel : Nat) : RefLabel → EncoderRegs → List Instr → Prop
  | .search p, r, out => Searching b pre fuel p r out
  | .found, r, out => Matched b pre fuel r out

end

section
variable {b pre : List Byte} {fuel p : Nat} {r : EncoderRegs} {out : List Instr}

/-- DONE writes the rest of the block (R197). -/
theorem emits_refDone (h : Emits 0 out pre (pre ++ b.take r.nextEmit)) (hb : b.length ≤ 65536) :
    Emits 7 (out ++ refDone b r) pre (pre ++ b) := by
  unfold refDone
  split
  · next hlt =>
    have hlen : (b.drop r.nextEmit).length = b.length - r.nextEmit := List.length_drop
    have hliteral := h.literal (b := b.drop r.nextEmit) (by omega) (by omega)
    rwa [List.append_assoc, List.take_append_drop] at hliteral
  · next hge =>
    rw [List.append_nil]
    rw [List.take_of_length_le (Nat.le_of_not_lt hge)] at h
    exact h.weaken

/-- The literal before a match writes the block up to the match (R193). -/
theorem emits_literal_before {q : Nat} (h : Emits 0 out pre (pre ++ b.take p)) (hpq : p < q)
    (hq : q ≤ b.length) (hb : b.length ≤ 65536) :
    Emits 7 (out ++ [literalInstr ((b.drop p).take (q - p))]) pre (pre ++ b.take q) := by
  have hlen : ((b.drop p).take (q - p)).length = q - p :=
    List.length_take_of_le (by rw [List.length_drop]; omega)
  have hliteral := h.literal (b := (b.drop p).take (q - p)) (by omega) (by omega)
  rwa [List.append_assoc, ← List.take_add, Nat.add_sub_cancel' hpq.le] at hliteral

theorem refProbe_lt (p : Nat) (hskip : 32 ≤ r.skip) : p < (refProbe p r).2 := by
  simp only [refProbe]
  omega

/-- A probe that finds no match leaves the loop at SEARCH (R192). -/
theorem Searching.probe (h : Searching b pre (fuel + 1) p r out) :
    Searching b pre fuel (refProbe p r).2 (refRecord b (refProbe p r).2 (refProbe p r).1) out := by
  have hlt := refProbe_lt p h.skip
  have hfuel := h.fuel
  exact ⟨by omega, h.sLimit, h.skip.trans (Nat.le_add_right ..), h.pos.trans hlt,
    h.positions.write hlt.le hlt _, h.emits⟩

/-- A probe that finds a match emits the literal before it (R192, R193). -/
theorem Searching.matched (h : Searching b pre (fuel + 1) p r out) (hb : b.length ≤ 65536)
    (hlimit : (refProbe p r).2 ≤ r.sLimit) {r' : EncoderRegs}
    (hr' : r' = refRecord b (refProbe p r).2 (refProbe p r).1)
    (hagrees : load32 b r'.s = load32 b r'.cand) :
    Matched b pre fuel r'
      (out ++ [literalInstr ((b.drop r'.nextEmit).take (r'.s - r'.nextEmit))]) := by
  subst hr'
  have hlt := refProbe_lt p h.skip
  have hfuel := h.fuel
  rw [h.sLimit] at hlimit
  have hp : p + 4 ≤ b.length := by omega
  have hfuel' : b.length ≤ fuel + p := by omega
  exact ⟨hfuel', h.sLimit, hp,
    h.positions.read (Nat.zero_lt_of_lt h.pos) _, hagrees,
    h.positions.write (Nat.le_succ p) (Nat.lt_succ_self p) _,
    emits_literal_before h.emits h.pos (Nat.le_of_add_right_le hp) hb⟩

/-- The copy of a match writes the block up to the new cursor (R194, R195). -/
theorem Matched.copied (h : Matched b pre (fuel + 1) r out) (hb : b.length ≤ 65536) :
    Copied b pre fuel (refAfterCopy (refMatchLength b r) r)
      (out ++ emitCopy (r.s - r.cand) (refMatchLength b r)) := by
  have hcand := h.cand
  have hwithin := h.within
  have hfuel := h.fuel
  have hlen : 4 ≤ refMatchLength b r := shingle_le_refMatchLength
  have hcopy := replayCopy_of_repeats (pre := pre) hcand (add_refMatchLength_le hwithin)
    (take_refMatchLength hwithin hcand h.agrees)
  refine ⟨?_, h.sLimit, rfl, Nat.add_pos_right _ (by omega), fun e he => ?_,
    h.emits.copy hlen (by omega) (by omega) hcopy⟩
  · simp only [refAfterCopy]
    omega
  · have := h.positions e he
    simp only [refAfterCopy]
    omega

section
variable (h : Copied b pre fuel r out) (x : Nat)
include h

/-- The table holds positions up to the cursor, and the candidate read is before it (R196). -/
theorem Copied.postMatch_positions :
    (refPostMatch x r).cand < r.s ∧ PositionsBelow (r.s + 1) (refPostMatch x r).ht := by
  have hprev := h.positions.write le_rfl (Nat.sub_lt h.pos Nat.one_pos)
    (shingleHash r.shift (x % 2 ^ 32))
  exact ⟨hprev.read h.pos _, hprev.write (Nat.le_succ _) (Nat.lt_succ_self _) _⟩

/-- The candidate for the new cursor matches at once (R196). -/
theorem Copied.matched (hlimit : r.s < r.sLimit)
    (hagrees : load64 b (r.s - 1) / 2 ^ 8 % 2 ^ 32 =
      load32 b (refPostMatch (load64 b (r.s - 1)) r).cand) :
    Matched b pre fuel (refPostMatch (load64 b (r.s - 1)) r) out := by
  obtain ⟨hcand, hpositions⟩ := h.postMatch_positions (load64 b (r.s - 1))
  rw [load64_shingle, Nat.sub_add_cancel h.pos] at hagrees
  rw [h.sLimit] at hlimit
  have hwithin : r.s + 4 ≤ b.length := by omega
  exact ⟨h.fuel, h.sLimit, hwithin, hcand, hagrees, hpositions, (h.nextEmit ▸ h.emits).weaken⟩

/-- The search goes on behind the cursor (R196). -/
theorem Copied.resume : Searching b pre fuel (r.s + 1) (refResume x (refPostMatch x r)) out :=
  ⟨Nat.lt_succ_of_le h.fuel, h.sLimit, le_rfl, h.nextEmit.trans_lt (Nat.lt_succ_self _),
    (h.postMatch_positions x).2, h.emits⟩

end

end

/-- Wherever the loop stands, it ends with the whole block written. -/
theorem refLoop_emits {b pre : List Byte} (hb : b.length ≤ 65536) {fuel : Nat} {label : RefLabel}
    {r : EncoderRegs} {out : List Instr} (h : RefInv b pre fuel label r out) :
    Emits 7 (refLoop b fuel label r out).1 pre (pre ++ b) := by
  induction fuel generalizing label r out with
  | zero =>
    cases label with
    | search p => exact emits_refDone h.emits hb
    | found =>
      have hfuel := h.fuel
      have hwithin := h.within
      omega
  | succ fuel ih =>
    cases label with
    | search p =>
      have hs : Searching b pre (fuel + 1) p r out := h
      simp only [refLoop]
      split
      · exact emits_refDone (r := (refProbe p r).1) hs.emits hb
      · next hlimit =>
        split
        · exact ih hs.probe
        · next hagrees =>
          exact ih (label := .found)
            (hs.matched hb (Nat.le_of_not_lt hlimit) rfl (not_not.mp hagrees))
    | found =>
      have hm : Matched b pre (fuel + 1) r out := h
      have hcopied := hm.copied hb
      simp only [refLoop]
      split
      · exact emits_refDone hcopied.emits hb
      · next hlimit =>
        split
        · next hagrees =>
          exact ih (label := .found) (hcopied.matched (Nat.lt_of_not_le hlimit) hagrees)
        · exact ih (hcopied.resume _)

section
variable {b : List Byte} (r : EncoderRegs) (pre : List Byte)

/-- A block's search starts with nothing emitted and an empty table (R189, R191). -/
theorem searching_refStart : Searching b pre (2 * b.length) 1 (refStart b r) [] := by
  have hemits : Emits 0 [] pre (pre ++ b.take 0) := by
    rw [List.take_zero, List.append_nil]
    exact .nil pre
  exact ⟨by omega, rfl, le_rfl, Nat.one_pos, List.forall_mem_nil _, hemits⟩

theorem refBlock_emits (hpos : 1 ≤ b.length) (hb : b.length ≤ 65536) :
    Emits 7 (refBlock b r).1 pre (pre ++ b) := by
  unfold refBlock
  split
  · exact (Emits.nil pre).literal hpos (by omega)
  · exact refLoop_emits hb (label := .search 1) (searching_refStart r pre)

end

/-! ### REF writes its input (R185, R198, R199) -/

/-- The sub-blocks write the input one after the other, in at most a seventh more bytes and one for
each sub-block. -/
theorem refBlocks_writes {fuel : Nat} {src : List Byte} (hfuel : src.length ≤ fuel)
    (r : EncoderRegs) (pre : List Byte) :
    Writes (refBlocks fuel src r).1 pre (pre ++ src) ∧
      7 * (encodeElems (refBlocks fuel src r).1).length ≤
        8 * src.length + 7 * ((src.length + 65535) / 65536) := by
  induction fuel generalizing src r pre with
  | zero =>
    obtain rfl : src = [] := List.length_eq_zero_iff.mp (Nat.le_zero.mp hfuel)
    rw [List.append_nil]
    exact ⟨.nil pre, Nat.zero_le _⟩
  | succ fuel ih =>
    rw [refBlocks]
    split
    · next h =>
      rw [h, List.append_nil]
      exact ⟨.nil pre, Nat.zero_le _⟩
    · next h =>
      have hpos : 1 ≤ src.length := List.length_pos_iff.mpr h
      have htake : (src.take 65536).length = min 65536 src.length := List.length_take
      have hdrop : (src.drop 65536).length = src.length - 65536 := List.length_drop
      have hfirst := refBlock_emits (b := src.take 65536) r pre (by omega) (by omega)
      obtain ⟨hothers, hsize⟩ := ih (src := src.drop 65536) (by omega)
        (refBlock (src.take 65536) r).2 (pre ++ src.take 65536)
      have hwrites := hfirst.toWrites.append hothers
      rw [List.append_assoc, List.take_append_drop] at hwrites
      refine ⟨hwrites, ?_⟩
      have hfirstSize := hfirst.size
      rw [List.length_append] at hfirstSize
      have hblocks : (src.length + 65535) / 65536 = (src.length - 65536 + 65535) / 65536 + 1 := by
        omega
      rw [hdrop] at hsize
      rw [encodeElems_append, List.length_append]
      omega

/-! ### REF is a function of its input (R184) -/

section
variable (b : List Byte) (fuel p : Nat) (r : EncoderRegs) (out : List Instr)

theorem refLoop_search_done (h : (refProbe p r).2 > r.sLimit) :
    (refLoop b (fuel + 1) (.search p) r out).1 = out ++ refDone b r :=
  congrArg Prod.fst (if_pos h)

/-- SEARCH sets the candidate before anything reads it. -/
theorem refLoop_search_cand (cand : Nat) :
    (refLoop b fuel (.search p) { r with cand := cand } out).1 =
      (refLoop b fuel (.search p) r out).1 := by
  cases fuel with
  | zero => rfl
  | succ fuel =>
    by_cases hlimit : (refProbe p r).2 > r.sLimit
    · rw [refLoop_search_done b fuel p r out hlimit]
      exact refLoop_search_done b fuel p { r with cand := cand } out hlimit
    · exact congrArg Prod.fst ((if_neg hlimit).trans (if_neg hlimit).symm)

end

theorem refBlock_regs (b : List Byte) (r r' : EncoderRegs) :
    (refBlock b r).1 = (refBlock b r').1 := by
  unfold refBlock
  split
  · rfl
  · exact (refLoop_search_cand b _ 1 (refStart b r) [] r'.cand).symm

theorem refBlocks_regs (fuel : Nat) (src : List Byte) (r r' : EncoderRegs) :
    (refBlocks fuel src r).1 = (refBlocks fuel src r').1 := by
  induction fuel generalizing src r r' with
  | zero => rfl
  | succ fuel ih =>
    rw [refBlocks, refBlocks]
    split
    · rfl
    · simp only [refBlock_regs (src.take 65536) r r']
      congr 1
      exact ih ..

end Sys2Proof.Machine

namespace Sys2Proof.Machine
open Sys2Proof.Spec

/-! ### A stream that decodes replays (R181, R244, R255) -/

section
variable {len : Nat} {i : Instr} {out mid src : List Byte}

theorem replayCopy_of_copyExec {offset n : Nat} (h : copyExec len offset n out = .ok mid) :
    replayCopy out offset n = some mid := by
  unfold copyExec at h
  split at h
  · cases h
  next h0 =>
  split at h
  · cases h
  next hle =>
  split at h <;> cases h
  exact replayCopy_of_valid (Nat.pos_of_ne_zero h0) (Nat.le_of_not_lt hle) n

/-- An element's effect on DST is its replay. -/
theorem replay_of_elementEffect (hi : i.isElement = true) (h : elementEffect len i out = .ok mid)
    (is : List Instr) : replay (i :: is) out = replay is mid := by
  cases i with
  | lit b | litX1 b | litX2 b | litX3 b | litX4 b =>
    simp only [elementEffect, putLiteral] at h
    split at h <;> cases h
    rfl
  | copy1 offset n | copy2 offset n | copy4 offset n =>
    rw [replay, replayCopy_of_copyExec h, Option.bind_some]
  | _ => cases hi

theorem eq_of_decodeLoop_nil {fuel : Nat} (h : decodeLoop len fuel [] out = .ok src) :
    out = src := by
  cases fuel <;>
  · rw [decodeLoop, if_pos rfl] at h
    split at h <;> cases h
    rfl

/-- A decode loop that ends with `src` has replayed its elements. -/
theorem replay_of_decodeLoop {is : List Instr}
    (his : ∀ i ∈ is, i.isElement = true ∧ i.wellFormed = true) {fuel : Nat}
    (h : decodeLoop len fuel (encodeElems is) out = .ok src) : replay is out = some src := by
  induction is generalizing out fuel with
  | nil =>
    rw [eq_of_decodeLoop_nil h, replay]
  | cons i is ih =>
    obtain ⟨⟨hi, hwf⟩, his⟩ := List.forall_mem_cons.mp his
    have hne : encodeElem i ++ encodeElems is ≠ [] := List.append_ne_nil_of_left_ne_nil
      (List.length_pos_iff.mp (encodeElem_length_pos hi hwf)) _
    rw [encodeElems_cons] at h
    cases fuel with
    | zero =>
      rw [decodeLoop, if_neg hne] at h
      cases h
    | succ fuel =>
      cases heffect : elementEffect len i out with
      | ok mid =>
        rw [decodeLoop_encodeElem hi hwf heffect] at h
        rw [replay_of_elementEffect hi heffect]
        exact ih his h
      | error c =>
        rw [decodeLoop, if_neg hne, decodeElem_encodeElem hi hwf] at h
        simp only [heffect] at h
        cases h

end

/-- The body that parses is the encoding of well-formed elements (R111, R112). -/
theorem encodeElems_of_parseElems {fuel : Nat} {bytes : List Byte} {is : List Instr}
    (h : parseElems fuel bytes = .ok is) :
    bytes = encodeElems is ∧ ∀ i ∈ is, i.isElement = true ∧ i.wellFormed = true := by
  induction fuel generalizing bytes is with
  | zero =>
    rw [parseElems] at h
    split at h <;> cases h
    next hnil => exact ⟨hnil, List.forall_mem_nil _⟩
  | succ fuel ih =>
    rw [parseElems] at h
    split at h
    · next hnil => cases h; exact ⟨hnil, List.forall_mem_nil _⟩
    split at h
    · cases h
    next i k hdecode =>
    split at h <;> cases h
    next is hrest =>
    obtain ⟨hi, hwf, -, -, hencode⟩ := decodedElementReencodes bytes i k hdecode
    obtain ⟨hbytes, his⟩ := ih hrest
    refine ⟨?_, List.forall_mem_cons.mpr ⟨⟨hi, hwf⟩, his⟩⟩
    rw [encodeElems_cons, hencode, ← hbytes, List.take_append_drop]

/-! ### What every policy's body is (R181) -/

/-- The body is the encoding of well-formed elements that write `src`, and with its header it is
within the bound. -/
def Conforming (src body : List Byte) : Prop :=
  (∃ is, body = encodeElems is ∧ Writes is [] src) ∧ (rawStream src body).length ≤ bound src.length

section
variable {src : List Byte} (hsrc : src.length ≤ 4294967295)
include hsrc

/-- The header takes five bytes at most, so that 27 are left of the bound's constant. -/
theorem rawStream_length_le {body : List Byte}
    (hbody : body.length ≤ 27 + src.length + src.length / 6) :
    (rawStream src body).length ≤ bound src.length := by
  have hheader : (varintEncode (BitVec.ofNat 64 src.length)).length ≤ 5 := by
    refine (varintEncode_length_le_iff _ (by decide)).mpr ?_
    rw [BitVec.toNat_ofNat, Nat.mod_eq_of_lt (by omega)]
    omega
  rw [rawStream, List.length_append]
  simp only [bound, Config.boundConst]
  omega

theorem decompressed_rawStream_of_conforming {body : List Byte} (h : Conforming src body) :
    decompressed 0xFFFFFFFF (rawStream src body) = .ok src := by
  obtain ⟨⟨is, rfl, hwrites⟩, -⟩ := h
  exact decompressReplaysElements is src _ hwrites.elements hwrites.replays hsrc

theorem conforming_of_conforms {body : List Byte} (h : conforms src body = true) :
    Conforming src body := by
  simp only [conforms, Bool.and_eq_true, decide_eq_true_eq] at h
  obtain ⟨⟨⟨hdecodes, hbound⟩, hparses⟩, -⟩ := h
  cases hparse : parseElems body.length body with
  | error c =>
    rw [hparse] at hparses
    cases hparses
  | ok is =>
    obtain ⟨hbody, his⟩ := encodeElems_of_parseElems hparse
    have hcap : src.length ≤ (0xFFFFFFFF : Word32).toNat := hsrc
    rw [rawStream, decompressed, decompressHeader_varintEncode hcap] at hdecodes
    simp only [List.drop_left] at hdecodes
    exact ⟨⟨is, hbody, his, replay_of_decodeLoop his (hbody ▸ hdecodes)⟩, hbound⟩

theorem conforming_literalBody : Conforming src (literalBody src) := by
  unfold literalBody
  split
  · next h =>
    rw [h]
    exact ⟨⟨[], rfl, .nil []⟩, by decide⟩
  · next h =>
    have hpos : 1 ≤ src.length := List.length_pos_iff.mpr h
    have hsize := encodeElem_literalInstr_length_lt hpos
    refine ⟨⟨[literalInstr src], (encodeElems_singleton _).symm, ?_⟩,
      rawStream_length_le hsrc (by omega)⟩
    exact literalInstr_writes hpos (by omega) []

theorem conforming_refElems (r : EncoderRegs) :
    Conforming src (encodeElems (refElems src r).1) := by
  obtain ⟨hwrites, hsize⟩ := refBlocks_writes (src := src) le_rfl r []
  exact ⟨⟨_, rfl, hwrites⟩, rawStream_length_le hsrc (by rw [refElems]; omega)⟩

theorem conforming_encoderBody (p : Config.EncoderChoice) (r : EncoderRegs) :
    Conforming src (encoderBody p src r).1 := by
  cases p with
  | ref => exact conforming_refElems hsrc r
  | other n =>
    show Conforming src (otherBody n src)
    unfold otherBody
    split
    · next h => exact conforming_of_conforms hsrc h
    · exact conforming_literalBody hsrc

end

/-- No policy's body depends on the registers it starts with (R184). -/
theorem encoderBody_regs (p : Config.EncoderChoice) (src : List Byte) (r r' : EncoderRegs) :
    (encoderBody p src r).1 = (encoderBody p src r').1 := by
  cases p with
  | ref => exact congrArg encodeElems (refBlocks_regs _ src r r')
  | other n => rfl

/-- Settles O19: every policy's body writes the input, and decoding replays what it writes. -/
theorem compressConforms : Obligations.CompressConforms := by
  intro p src r hsrc
  have hconf := conforming_encoderBody hsrc p r
  have ⟨⟨is, hbody, hwrites⟩, hbound⟩ := hconf
  refine ⟨decompressed_rawStream_of_conforming hsrc hconf, hbound,
    ⟨is, congrArg (rawStream src) hbody, hwrites.elements, hwrites.replays⟩, fun r' => ?_⟩
  exact congrArg (rawStream src) (encoderBody_regs p src r' r)

end Sys2Proof.Machine

namespace Sys2Proof.Machine
open Sys2Proof.Spec

/-! ### COMPRESS (R180, R183) -/

section
variable {src : List Byte} {s : State}

theorem exec_compress_of_le (h : src.length ≤ Config.maxBlockLen) :
    exec (.compress src) s =
      .next (complete 0x11 (.bytes (compressed s.policy.encoder src s.enc).1)
        (s.setEnc (compressed s.policy.encoder src s.enc).2)) :=
  if_neg h.not_gt

theorem exec_compress_of_gt (h : Config.maxBlockLen < src.length) :
    exec (.compress src) s = .next (raise 0x11 .encodeInputTooLarge s) :=
  if_pos h

end

/-- Settles O20: the limit picks the branch, and only the encoder's registers are written before the
command completes. -/
theorem compressCompletes : Obligations.CompressCompletes := by
  intro src s
  refine ⟨fun h => ?_, fun h => ⟨_, exec_compress_of_gt h, oneShotError_raise rfl rfl⟩⟩
  exact ⟨(encoderBody s.policy.encoder src s.enc).1, _, exec_compress_of_le h, rfl,
    completedOk_complete 0x11 _ (s.setEnc _), ⟨rfl, rfl⟩, rfl, rfl, rfl, rfl, rfl, rfl, rfl, rfl,
    rfl⟩

section
variable {src : List Byte} (h : src.length ≤ 1)
include h

theorem refElems_body_of_length_le_one (r : EncoderRegs) :
    encodeElems (refElems src r).1 = literalBody src := by
  match src, h with
  | [], _ => rfl
  | [b], _ => simp [refElems, refBlocks, refBlock, literalBody, encodeElems_singleton]

theorem otherBody_of_length_le_one (n : Nat) : otherBody n src = literalBody src := by
  unfold otherBody
  split
  · next hconf =>
    simp only [conforms, Bool.and_eq_true, decide_eq_true_eq] at hconf
    exact hconf.2 h
  · rfl

/-- Every policy has one body for an input of at most one byte (R183). -/
theorem encoderBody_of_length_le_one (p : Config.EncoderChoice) (r : EncoderRegs) :
    (encoderBody p src r).1 = literalBody src := by
  cases p with
  | ref => exact refElems_body_of_length_le_one h r
  | other n => exact otherBody_of_length_le_one h n

theorem exec_compress_of_length_le_one (s : State) : ∃ t, exec (.compress src) s = .next t ∧
    completedOk 0x11 (.bytes (rawStream src (literalBody src))) s t := by
  have hle : src.length ≤ Config.maxBlockLen := h.trans (by decide)
  refine ⟨_, exec_compress_of_le hle, ?_⟩
  rw [compressed, encoderBody_of_length_le_one h]
  exact completedOk_complete 0x11 _ (s.setEnc _)

end

theorem rawStream_literalBody_singleton (b : Byte) :
    rawStream [b] (literalBody [b]) = [0x01, 0x00, b] := by
  have hbody : literalBody [b] = [0x00, b] := if_neg (List.cons_ne_nil b [])
  have hheader : varintEncode (BitVec.ofNat 64 1) = [0x01] := by decide
  rw [hbody, rawStream, List.length_singleton, hheader, List.singleton_append]

/-- Settles O21: the one body of so short an input, behind its header. -/
theorem smallestInputsCompressAlike : Obligations.SmallestInputsCompressAlike := by
  refine fun s => ⟨exec_compress_of_length_le_one (src := []) (Nat.zero_le 1) s, fun b => ?_⟩
  rw [← rawStream_literalBody_singleton b]
  exact exec_compress_of_length_le_one le_rfl s

end Sys2Proof.Machine

namespace Sys2Proof.Machine
open Sys2Proof.Spec

/-! ### The rows of the table of commands and kinds (R432) -/

/-- The codes that have a command (R117). -/
def commandCodes : List Byte :=
  [0x01, 0x02, 0x10, 0x11, 0x20, 0x30, 0x31, 0x32, 0x40, 0x50, 0x51, 0x7D, 0x7E, 0x7F]

/-- The causes a decode loop's elements and its end may have (R109, R245, R249, R250). -/
def DecodeCause (c : Cause) : Prop :=
  c ∈ [Cause.tagTruncated, .literalTruncated, .offsetZero, .offsetBeyondOutput, .overshoot,
    .lengthShort]

/-- The causes DECOMPRESS may have before its decode loop runs (R152, R242). -/
def HeaderCause (c : Cause) : Prop :=
  c ∈ [Cause.varintTruncated, .varintOverflow, .declaredLengthOverMax, .declaredLengthOverCeiling]

section
variable {p : Policy} {cmd : Byte} {c : Cause}

theorem mayRaise_varintDecode (h : c = .varintTruncated ∨ c = .varintOverflow) :
    mayRaise p 0x02 c := by
  simpa [mayRaise] using h

theorem mayRaise_maxCompressLen (h : p.oversize = .refused) :
    mayRaise p 0x10 .encodeInputTooLarge := by
  simpa [mayRaise] using h

theorem mayRaise_compress : mayRaise p 0x11 .encodeInputTooLarge := by
  simp [mayRaise]

theorem mayRaise_decompress (h : HeaderCause c ∨ DecodeCause c) : mayRaise p cmdDecompress c := by
  simp only [HeaderCause, DecodeCause, List.mem_cons, List.not_mem_nil, or_false] at h
  obtain (rfl | rfl | rfl | rfl) | rfl | rfl | rfl | rfl | rfl | rfl := h <;>
    simp [mayRaise, cmdDecompress]

theorem isWriterCmd_iff :
    isWriterCmd cmd = true ↔ cmd = cmdFwWrite ∨ cmd = cmdFwFlush ∨ cmd = cmdFwClose :=
  decide_eq_true_iff

theorem mayRaise_writer (hcmd : isWriterCmd cmd = true) (h : writerCause c = true) :
    mayRaise p cmd c := by
  obtain rfl | rfl : c = .sinkIo ∨ c = .sinkWriteZero := of_decide_eq_true h
  all_goals
    obtain rfl | rfl | rfl := isWriterCmd_iff.mp hcmd <;>
      simp [mayRaise, cmdFwWrite, cmdFwFlush, cmdFwClose]

theorem mayRaise_sessionClosed (hcmd : isWriterCmd cmd = true) (hne : cmd ≠ cmdFwClose) :
    mayRaise p cmd .sessionClosed := by
  obtain rfl | rfl | rfl := isWriterCmd_iff.mp hcmd
  · simp [mayRaise, cmdFwWrite]
  · simp [mayRaise, cmdFwFlush]
  · exact absurd rfl hne

/-- FR_READ's row holds the causes that fail a reader session, cause by cause. -/
theorem mayRaise_frRead (h : readerCause c = true) : mayRaise p cmdFrRead c := by
  have hrow : c ∈ [Cause.varintTruncated, .varintOverflow, .tagTruncated, .literalTruncated,
      .offsetZero, .offsetBeyondOutput, .overshoot, .lengthShort, .streamIdentMissing,
      .streamIdentBad, .reservedChunkType, .chunkTooShort, .chunkTooLong, .chunkDecodedTooLong,
      .truncatedStream, .checksum, .sourceIo] := by
    revert h
    cases c <;> decide
  simpa [mayRaise, cmdFrRead] using hrow

theorem mayRaise_readReg : mayRaise p 0x50 .badRegister := by
  simp [mayRaise]

theorem mayRaise_writeReg (h : c = .badRegister ∨ c = .regReadOnly) : mayRaise p 0x51 c := by
  simpa [mayRaise] using h

/-- A code with no command has the last row to itself (R405). -/
theorem mayRaise_unknownCommand (h : cmd ∉ commandCodes) : mayRaise p cmd .unknownCommand := by
  simp only [commandCodes, BitVec.ofNat_eq_ofNat, List.mem_cons, List.not_mem_nil, or_false,
    not_or] at h
  simp [mayRaise, h]

end

/-! ### The causes of the parts of a step (R434) -/

theorem varintDecodeLoop_cause {i : Nat} {n : Word64} {src : List Byte} {c : Cause}
    (h : varintDecodeLoop i n src = .error c) : c = .varintTruncated ∨ c = .varintOverflow := by
  induction src generalizing i n with
  | nil => cases h; exact .inl rfl
  | cons b rest ih =>
    simp only [varintDecodeLoop] at h
    split at h
    · cases h; exact .inr rfl
    · split at h
      · cases h
      · exact ih h

theorem decompressHeader_cause {cap : Word32} {src : List Byte} {c : Cause}
    (h : decompressHeader cap src = .error c) : HeaderCause c := by
  unfold decompressHeader at h
  split at h
  · next hv =>
    cases h
    obtain rfl | rfl := varintDecodeLoop_cause hv <;> simp [HeaderCause]
  · split at h
    · cases h; simp [HeaderCause]
    · split at h <;> cases h
      simp [HeaderCause]

theorem elementEffect_cause {i : Instr} (hi : i.isElement = true) {len : Nat} {dst : List Byte}
    {c : Cause} (h : elementEffect len i dst = .error c) : DecodeCause c := by
  cases i with
  | lit b | litX1 b | litX2 b | litX3 b | litX4 b =>
    simp only [elementEffect, putLiteral] at h
    split at h <;> cases h
    simp [DecodeCause]
  | copy1 offset n | copy2 offset n | copy4 offset n =>
    simp only [elementEffect, copyExec] at h
    iterate 3
      split at h
      · cases h; simp [DecodeCause]
    cases h
  | _ => cases hi

theorem decodeElem_cause {b : List Byte} {c : Cause} (h : decodeElem b = .error c) :
    DecodeCause c := by
  obtain rfl | rfl := decodeElem_error_answer h <;> simp [DecodeCause]

theorem decodeCommand_error_code {c : HostCommand} {e : Cause} (h : decodeCommand c = .error e) :
    c.code ∉ commandCodes := by
  unfold decodeCommand at h
  simp only [commandCodes, List.mem_cons, List.not_mem_nil, or_false, not_or]
  iterate 13
    obtain ⟨hne, h⟩ := error_of_ite h
    refine ⟨hne, ?_⟩
  exact (error_of_ite h).1

/-! ### What a step reports (R406, R437) -/

/-- An error reported between `s` and `t` has a cause of which `p` holds. -/
def Raises (p : Cause → Prop) (s t : State) : Prop :=
  ∀ c, t.responses = s.responses ++ [.error c] → p c

section
variable {p q : Cause → Prop} {cmd : Byte} {s s' t : State}

theorem Raises.mono (h : Raises p s t) (hpq : ∀ c, p c → q c) : Raises q s t :=
  fun c hc => hpq c (h c hc)

theorem raises_of_no_response (h : t.responses = s.responses) : Raises p s t := by
  intro c hc
  rw [h, List.self_eq_append_right] at hc
  cases hc

theorem raises_complete {res : Results} (h : s'.responses = s.responses) :
    Raises p s (complete cmd res s') := by
  intro c hc
  rw [complete_responses, h, List.append_cancel_left_eq] at hc
  cases hc

theorem raises_raise {c : Cause} (h : s'.responses = s.responses) (hc : p c) :
    Raises p s (raise cmd c s') := by
  intro c' hc'
  rw [raise_responses, h, List.append_cancel_left_eq] at hc'
  cases hc'
  exact hc

theorem raises_acceptData {stored u : List Byte} (h : s'.responses = s.responses)
    (hc : p .checksum) : Raises p s (acceptData stored u s') := by
  obtain he | he := acceptData_cases stored u s' <;> rw [he]
  · exact raises_raise h hc
  · exact raises_of_no_response h

/-! ### The loops of FR_READ and of a decode -/

theorem ReadStep.raises {max : Word64} (h : ReadStep max s t) :
    Raises (readerCause · = true) s t := by
  cases h with
  | delivers => exact raises_complete rfl
  | ends n q hp => exact raises_complete rfl
  | fails n q hc => exact raises_raise rfl hc
  | accepts stored n q hu => exact raises_acceptData rfl rfl
  | _ => exact raises_of_no_response rfl

theorem DecodeStep.raises (h : DecodeStep s t) : Raises (readerCause · = true) s t := by
  cases h with
  | element hi hpc hk hdst hlen => exact raises_of_no_response rfl
  | fails hc => exact raises_raise rfl (readerCause_of_corrupt hc)
  | ends he hlen => exact raises_complete rfl
  | endsChunk he hlen => exact raises_acceptData rfl rfl

section
variable (hs : s.engine = .decompressing)
include hs

theorem raiseDecode_of_decompressing (c : Cause) :
    raiseDecode c s = .next (raise cmdDecompress c s) := by
  rw [raiseDecode, hs]

theorem raiseDecode_raises {c : Cause} (hc : p c) (h : raiseDecode c s = .next t) :
    Raises p s t := by
  rw [raiseDecode_of_decompressing hs] at h
  cases h
  exact raises_raise rfl hc

theorem exec_element_raises {i : Instr} (hi : i.isElement = true) (h : exec i s = .next t) :
    Raises DecodeCause s t := by
  rw [exec_element hi] at h
  obtain ⟨hf, -⟩ | ⟨dst, -, hrun⟩ | ⟨c, he, hrun⟩ :=
    runElement_cases i.size (elementEffect s.dec.len i s.dec.dst) s
  · cases hf.symm.trans h
  · cases hrun.symm.trans h
    exact raises_of_no_response rfl
  · exact raiseDecode_raises hs (elementEffect_cause hi he) (hrun.symm.trans h)

theorem endCheck_raises (h : endCheck s = .next t) : Raises DecodeCause s t := by
  unfold endCheck at h
  split at h
  · exact raiseDecode_raises hs (by simp [DecodeCause]) h
  · rw [hs] at h
    cases h
    exact raises_complete rfl

/-- DECOMPRESS's decode loop reports the causes of its elements and of its end alone. -/
theorem step_raises_of_decompressing (h : step s = .next t) : Raises DecodeCause s t := by
  have hd : decoding s := .inl hs
  by_cases hpc : s.dec.pc < s.dec.src.length
  · cases hi : decodeElem (s.dec.src.drop s.dec.pc) with
    | ok x => exact exec_element_raises hs (decodeElem_ok hi).1 (step_of_element hd hpc hi ▸ h)
    | error c =>
      simp only [step, fetch_of_decoding hd, fetchElement, hpc, hi, if_true] at h
      exact raiseDecode_raises hs (decodeElem_cause hi) h
  · simp only [step, fetch_of_decoding hd, fetchElement, hpc, if_false] at h
    exact endCheck_raises hs h

end

/-! ### The host commands -/

section
variable (hw : writerOk s.w = true)

theorem endWriter_raises {res : Results} {a : Attempt} {buf : List Byte → Prop}
    (hcmd : isWriterCmd cmd = true) (ha : a.Runs s buf) :
    Raises (mayRaise s.policy cmd) s (endWriter cmd res a) := by
  cases ha with
  | done hrun hbuf => exact raises_complete hrun.responses
  | failed hrun hc => exact raises_raise hrun.responses (mayRaise_writer hcmd hc)

theorem closeWriter_raises {res : Results} {a : Attempt} {buf : List Byte → Prop}
    (hcmd : isWriterCmd cmd = true) (ha : a.Runs s buf) :
    Raises (mayRaise s.policy cmd) s (endWriter cmd res (closeWriter a)) := by
  cases ha with
  | done hrun hbuf => exact raises_complete hrun.responses
  | failed hrun hc => exact raises_raise hrun.responses (mayRaise_writer hcmd hc)

include hw in
/-- A writer command repeats a sink error, refuses a closed session, or runs (R310). -/
theorem writerEntry_raises {body : State → State} (hcmd : isWriterCmd cmd = true)
    (hbody : Raises (mayRaise s.policy cmd) s (body s))
    (h : writerEntry cmd s body = .next t) : Raises (mayRaise s.policy cmd) s t := by
  obtain ⟨c, hp, he⟩ | ⟨-, -, he⟩ | ⟨-, hne, he⟩ | ⟨-, he⟩ := writerEntry_cases cmd s body <;>
    cases he.symm.trans h
  · exact raises_raise rfl (mayRaise_writer hcmd (writerCause_of_writerOk hp hw))
  · exact raises_complete rfl
  · exact raises_raise rfl (mayRaise_sessionClosed hcmd hne)
  · exact hbody

include hw in
theorem execFwWrite_raises {src : List Byte} (h : execFwWrite src s = .next t) :
    Raises (mayRaise s.policy cmdFwWrite) s t :=
  writerEntry_raises hw rfl (endWriter_raises rfl (writeBytes_runs src id)) h

include hw in
theorem execFwFlush_raises (h : execFwFlush s = .next t) :
    Raises (mayRaise s.policy cmdFwFlush) s t :=
  writerEntry_raises hw rfl (endWriter_raises rfl (flushBuffer_runs s)) h

include hw in
theorem execFwClose_raises (h : execFwClose s = .next t) :
    Raises (mayRaise s.policy cmdFwClose) s t :=
  writerEntry_raises hw rfl (closeWriter_raises rfl (flushBuffer_runs s)) h

theorem execFrRead_raises {max : Word64} (hr : readerOk s.r = true)
    (h : execFrRead max s = .next t) : Raises (mayRaise s.policy cmdFrRead) s t := by
  unfold execFrRead at h
  split at h
  · next hc =>
    cases h
    exact raises_raise rfl (mayRaise_frRead (readerCause_of_readerOk hc hr))
  · split at h <;> cases h
    · exact raises_complete rfl
    · unfold frLoop
      split
      · exact raises_of_no_response rfl
      · exact raises_complete rfl

theorem execVarintDecode_raises {src : List Byte} (h : execVarintDecode src s = .next t) :
    Raises (mayRaise s.policy 0x02) s t := by
  unfold execVarintDecode at h
  split at h
  · cases h; exact raises_complete rfl
  · next he => cases h; exact raises_raise rfl (mayRaise_varintDecode (varintDecodeLoop_cause he))

theorem execMaxCompressLen_raises {n : Word64} (h : execMaxCompressLen n s = .next t) :
    Raises (mayRaise s.policy 0x10) s t := by
  unfold execMaxCompressLen at h
  split at h
  · next hover => cases h; exact raises_raise rfl (mayRaise_maxCompressLen hover.2)
  · cases h; exact raises_complete rfl

theorem execCompress_raises {src : List Byte} (h : execCompress src s = .next t) :
    Raises (mayRaise s.policy 0x11) s t := by
  unfold execCompress at h
  split at h <;> cases h
  · exact raises_raise rfl mayRaise_compress
  · exact raises_complete rfl

theorem execDecompress_raises {src : List Byte} (h : execDecompress src s = .next t) :
    Raises (mayRaise s.policy cmdDecompress) s t := by
  unfold execDecompress at h
  split at h <;> cases h
  · next he => exact raises_raise rfl (mayRaise_decompress (.inl (decompressHeader_cause he)))
  · exact raises_of_no_response rfl

theorem readRegister_cause {r : Byte} {c : Cause} (h : readRegister r s = .error c) :
    c = .badRegister := by
  unfold readRegister at h
  iterate 5 (split at h; · cases h)
  cases h
  rfl

theorem execReadReg_raises {r : Byte} (h : execReadReg r s = .next t) :
    Raises (mayRaise s.policy 0x50) s t := by
  unfold execReadReg at h
  split at h <;> cases h
  · exact raises_complete rfl
  · next he =>
    rw [readRegister_cause he]
    exact raises_raise rfl mayRaise_readReg

theorem writeRegister_cause {r : Byte} {v : Word32} {c : Cause}
    (h : writeRegister r v s = .error c) : c = .badRegister ∨ c = .regReadOnly := by
  unfold writeRegister at h
  iterate 2 (split at h; · cases h)
  split at h <;> cases h
  · exact .inr rfl
  · exact .inl rfl

theorem execWriteReg_raises {r : Byte} {v : Word32} (h : execWriteReg r v s = .next t) :
    Raises (mayRaise s.policy 0x51) s t := by
  unfold execWriteReg at h
  split at h <;> cases h
  · next he =>
    obtain ⟨m, b, rfl⟩ := writeRegister_ok he
    exact raises_complete rfl
  · next he => exact raises_raise rfl (mayRaise_writeReg (writeRegister_cause he))

include hw in
/-- A command reports the causes of its own row (R432). -/
theorem exec_command_raises {i : Instr} {c : HostCommand} (hi : encode i = .command c)
    (hr : readerOk s.r = true) (h : exec i s = .next t) :
    Raises (mayRaise s.policy c.code) s t := by
  cases i with
  | varintEncode n => cases h; exact raises_complete rfl
  | varintDecode src => cases hi; exact execVarintDecode_raises h
  | maxCompressLen n => cases hi; exact execMaxCompressLen_raises h
  | compress src => cases hi; exact execCompress_raises h
  | decompress src => cases hi; exact execDecompress_raises h
  | fwWrite src => cases hi; exact execFwWrite_raises hw h
  | fwFlush => cases hi; exact execFwFlush_raises hw h
  | fwClose => cases hi; exact execFwClose_raises hw h
  | frRead max => cases hi; exact execFrRead_raises hr h
  | readReg r => cases hi; exact execReadReg_raises h
  | writeReg r v => cases hi; exact execWriteReg_raises h
  | resetWriter | resetReader | reset => cases h; exact raises_complete rfl
  | _ => cases hi

include hw in
theorem step_command_raises {c : HostCommand} {rest : List HostCommand}
    (hs : s.engine = .idle) (hq : s.commands = c :: rest) (hr : readerOk s.r = true)
    (h : step s = .next t) : Raises (mayRaise s.policy c.code) s t := by
  cases hi : decodeCommand c with
  | ok i =>
    rw [step_of_command hs hq hi] at h
    obtain ⟨c', hc', hcode⟩ := encode_of_decodeCommand hi
    rw [← hcode]
    exact exec_command_raises (s := s.setCommands rest) hw hc' hr h
  | error e =>
    obtain ⟨rfl, -⟩ := decodeCommand_error hi
    simp only [step, fetch, hs, fetchCommand, hq, hi] at h
    cases h
    exact raises_raise rfl (mayRaise_unknownCommand (decodeCommand_error_code hi))

end

/-- An error is reported under the code of the command that ends. -/
theorem Reports.lastCmd (h : Reports cmd s t) {c : Cause}
    (hc : t.responses = s.responses ++ [.error c]) : t.status.lastCmd = cmd := by
  obtain ⟨hsame, -⟩ | ⟨resp, -, -, hst⟩ := h
  · exact (raises_of_no_response (p := fun _ => False) hsame c hc).elim
  · rw [hst]

end

/-- Settles O59: each kind of step reports the causes of the row of the command it belongs to. -/
theorem eachCommandRaisesOnlyItsCauses : Obligations.EachCommandRaisesOnlyItsCauses := by
  intro s t e hok h hresp
  obtain ⟨-, -, rfl⟩ | ⟨c, rest, he, hq, hc⟩ | ⟨hd, hstep⟩ | ⟨max, he, hr⟩ := step_cases h
  · exact raises_of_no_response (s := t) rfl e hresp
  · obtain ⟨hw, hr, -⟩ := (ok_of_idle he).mp hok
    have hrep : Reports c.code s t := hc.reports
    rw [hrep.lastCmd hresp]
    exact step_command_raises hw he hq hr h e hresp
  · rw [hstep.reports.lastCmd hresp]
    obtain he | ⟨max, stored, he⟩ := hd <;> rw [he]
    · exact mayRaise_decompress (.inr (step_raises_of_decompressing he h e hresp))
    · exact mayRaise_frRead (hstep.raises e hresp)
  · rw [hr.reports.lastCmd hresp]
    exact mayRaise_frRead (hr.raises e hresp)

end Sys2Proof.Machine

namespace Sys2Proof.Machine
open Sys2Proof.Spec

/-! ### An element that fits (O11, O12, O13) -/

theorem exec_element_ok {s : State} {i : Instr} {dst : List Byte} (hs : decoding s)
    (hi : i.isElement = true) (he : elementEffect s.dec.len i s.dec.dst = .ok dst) :
    exec i s = .next (s.setDec { s.dec with dst := dst, pc := s.dec.pc + i.size }) := by
  rw [exec_element hi, he]
  obtain h | ⟨max, stored, h⟩ := hs <;> rw [runElement, h]

/-- Settles O11: the effect of every literal form is to append its bytes. -/
theorem literalAppendsItsBytes : Obligations.LiteralAppendsItsBytes := by
  intro s b hs hfits p hp
  have heffect : putLiteral s.dec.len b s.dec.dst = .ok (s.dec.dst ++ b) :=
    putLiteral_of_le (by rwa [List.length_append])
  simp only [List.mem_cons, List.not_mem_nil, or_false] at hp
  obtain rfl | rfl | rfl | rfl | rfl := hp <;> exact exec_element_ok hs rfl heffect

section
variable {offset n : Nat} {dst : List Byte} (h0 : 1 ≤ offset) (h : offset ≤ dst.length)
include h0 h

theorem copyExec_of_fits {len : Nat} (hfits : dst.length + n ≤ len) :
    copyExec len offset n dst = .ok (copyBytes offset n dst) :=
  copyExec_of_replayCopy (replayCopy_of_valid h0 h n) ((copyBytes_length_le ..).trans hfits)

theorem copyBytes_length : (copyBytes offset n dst).length = dst.length + n := by
  simp [copyBytes_eq h0 n h]

/-- Byte `i` that a copy appends is byte `i mod offset` of the last `offset` bytes (R255). -/
theorem copyBytes_getElem?_add {i : Nat} (hi : i < n) :
    (copyBytes offset n dst)[dst.length + i]? = dst[dst.length - offset + i % offset]? := by
  have hread : dst.length - offset + i % offset < dst.length := by
    have := Nat.mod_lt i h0
    omega
  simp [copyBytes_eq h0 n h, hi, hread]

/-- A copy that does not reach its own bytes moves a block. -/
theorem copyBytes_of_le (hle : n ≤ offset) :
    copyBytes offset n dst = dst ++ (dst.drop (dst.length - offset)).take n := by
  rw [copyBytes_eq h0 n h, List.append_cancel_left_eq]
  refine List.ext_getElem (by simp; omega) fun i hi _ => ?_
  rw [List.length_map, List.length_range] at hi
  have hread : dst.length - offset + i < dst.length := by omega
  simp [Nat.mod_eq_of_lt (hi.trans_le hle), hread]

end

/-- A copy form that is valid and fits runs the byte-serial loop of COPY_EXEC. -/
theorem exec_copy_of_fits {s : State} {offset n : Nat} (hs : decoding s) (h0 : 1 ≤ offset)
    (h : offset ≤ s.dec.dst.length) (hfits : s.dec.dst.length + n ≤ s.dec.len) {p : Instr × Nat}
    (hp : p ∈ [(Instr.copy1 offset n, 2), (.copy2 offset n, 3), (.copy4 offset n, 5)]) :
    exec p.1 s = .next { s with dec :=
      { s.dec with dst := copyBytes offset n s.dec.dst, pc := s.dec.pc + p.2 } } := by
  have heffect := copyExec_of_fits h0 h hfits
  simp only [List.mem_cons, List.not_mem_nil, or_false] at hp
  obtain rfl | rfl | rfl := hp <;> exact exec_element_ok hs rfl heffect

/-- Settles O12: the bytes are those of the byte-serial loop. -/
theorem copyRepeatsEarlierOutput : Obligations.CopyRepeatsEarlierOutput := by
  intro s offset n hs h0 h hfits p hp
  refine ⟨_, exec_copy_of_fits hs h0 h hfits hp, copyBytes_length h0 h, fun j hj => ?_,
    fun i hi => copyBytes_getElem?_add h0 h hi⟩
  rw [copyBytes_eq h0 n h, List.getElem?_append_left hj]

/-- Settles O13: without overlap the byte-serial loop moves a block. -/
theorem nonOverlappingCopyIsBlockMove : Obligations.NonOverlappingCopyIsBlockMove := by
  intro s offset n hs h0 h hle hfits p hp
  rw [exec_copy_of_fits hs h0 h hfits hp, copyBytes_of_le h0 h hle]

/-! ### The start of DECOMPRESS (R240 to R243, O15) -/

section
variable {cap : Word32} {src : List Byte} {n : Word64} {h : Nat}

theorem decompressHeader_of_error {c : Cause} (hv : varintDecode src = .error c) :
    decompressHeader cap src = .error c := by
  simp only [decompressHeader, hv]

theorem decompressHeader_of_over_max (hv : varintDecode src = .ok (n, h))
    (hmax : Config.maxBlockLen < n.toNat) :
    decompressHeader cap src = .error .declaredLengthOverMax := by
  simp only [decompressHeader, hv]
  exact if_pos hmax

theorem decompressHeader_of_over_cap (hv : varintDecode src = .ok (n, h))
    (hmax : n.toNat ≤ Config.maxBlockLen) (hcap : cap.toNat < n.toNat) :
    decompressHeader cap src = .error .declaredLengthOverCeiling := by
  simp only [decompressHeader, hv]
  rw [if_neg hmax.not_gt, if_pos hcap]

theorem decompressHeader_of_le (hv : varintDecode src = .ok (n, h))
    (hmax : n.toNat ≤ Config.maxBlockLen) (hcap : n.toNat ≤ cap.toNat) :
    decompressHeader cap src = .ok (n.toNat, h) := by
  simp only [decompressHeader, hv]
  rw [if_neg hmax.not_gt, if_neg hcap.not_gt]

end

section
variable {src : List Byte} {s : State}

theorem exec_decompress_of_ok {len h : Nat}
    (hheader : decompressHeader s.cfgMaxDecode src = .ok (len, h)) :
    exec (.decompress src) s = .next ((startDecode src len h s).setEngine .decompressing) := by
  simp only [exec, execDecompress, hheader]

theorem exec_decompress_of_error {c : Cause}
    (hheader : decompressHeader s.cfgMaxDecode src = .error c) :
    ∃ t, exec (.decompress src) s = .next t ∧ oneShotError 0x20 c s t := by
  refine ⟨raise cmdDecompress c s, ?_, oneShotError_raise rfl rfl⟩
  simp only [exec, execDecompress, hheader]

end

/-- Settles O15: the header's answer picks the branch. -/
theorem decompressChecksThenStarts : Obligations.DecompressChecksThenStarts := by
  intro src s
  refine ⟨fun n h hv hmax hcap => ?_, fun c hv => ?_, fun n h hv hmax => ?_,
    fun n h hv hmax hcap => ?_⟩
  · exact exec_decompress_of_ok (decompressHeader_of_le hv hmax hcap)
  · exact exec_decompress_of_error (decompressHeader_of_error hv)
  · exact exec_decompress_of_error (decompressHeader_of_over_max hv hmax)
  · exact exec_decompress_of_error (decompressHeader_of_over_cap hv hmax hcap)

/-! ### The end of a decode (R250, O16, O41) -/

section
variable {s : State} (hs : decoding s) (hend : s.dec.src.length ≤ s.dec.pc)
include hs hend

/-- At the end of `SRC` a decode loop runs END_CHECK (R244). -/
theorem step_of_end : step s = endCheck s := by
  simp [step, fetch_of_decoding hs, fetchElement, hend.not_gt]

theorem step_fails_of_lengthShort (hlen : s.dec.dst.length ≠ s.dec.len) :
    ∃ t, step s = .next t ∧ decodeFails .lengthShort s t := by
  rw [step_of_end hs hend, endCheck, if_pos hlen]
  exact raiseDecode_fails hs

end

/-- Settles O16: END_CHECK compares the lengths. -/
theorem decompressEndsWithItsBytes : Obligations.DecompressEndsWithItsBytes := by
  intro s he hend
  refine ⟨fun hlen => ?_, fun hlen => ?_⟩
  · refine ⟨_, ?_, oneShotOk_complete cmdDecompress (.bytes s.dec.dst) s⟩
    simp only [step_of_end (.inl he) hend, endCheck, hlen, ne_eq, not_true, if_false, he]
  · obtain ⟨t, hstep, hfails, -⟩ := step_fails_of_lengthShort (.inl he) hend hlen
    exact ⟨t, hstep, hfails he⟩

/-- Settles O41: END_CHECK compares the lengths, and then the chunk's data meets its checksum. -/
theorem compressedChunkEndsWithItsChecksum : Obligations.CompressedChunkEndsWithItsChecksum := by
  intro s max stored he hend
  have hs : decoding s := .inr ⟨max, stored, he⟩
  have hstep (hlen : s.dec.dst.length = s.dec.len) :
      step s = .next (acceptData stored s.dec.dst (s.setEngine (.reading max))) := by
    simp only [step_of_end hs hend, endCheck, hlen, ne_eq, not_true, if_false, he]
  refine ⟨fun hlen => ?_, fun hlen hsum => ?_, fun hlen hsum => ?_⟩
  · obtain ⟨t, hstep, -, hfails⟩ := step_fails_of_lengthShort hs hend hlen
    exact ⟨t, hstep, (hfails ⟨max, stored, he⟩).1⟩
  · rw [hstep hlen, acceptData_of_eq hsum]
    exact ⟨_, rfl, rfl⟩
  · rw [hstep hlen, acceptData_of_ne hsum]
    exact ⟨_, rfl, readerFailed_raise_setCrc .checksum 0 s.source (crcRegister s.dec.dst) s⟩

/-! ### DECOMPRESS from its command to its response (R244, R252, R253, O17) -/

theorem decodeLoop_nil (len fuel : Nat) (dst : List Byte) :
    decodeLoop len fuel [] dst = if dst.length = len then .ok dst else .error .lengthShort := by
  cases fuel <;> rw [decodeLoop, if_pos rfl]

/-- DECOMPRESS has ended in `t` with the result `r` and changed no architectural state but STATUS. The
engine and the decoder of `s` do not matter, so a state in the middle of the run will do for `s`. -/
def DecompressEnds (s : State) (r : Except Cause (List Byte)) (t : State) : Prop :=
  (∀ b, r = .ok b → completedOk 0x20 (.bytes b) s t) ∧
    (∀ e, r = .error e → completedError 0x20 e s t) ∧
    sameConfig s t ∧ t.w = s.w ∧ t.r = s.r ∧ sameEncoder s t ∧ sameChannels s t

/-- Some number of steps from `s` ends DECOMPRESS with the result `r`. -/
def DecompressRuns (s : State) (r : Except Cause (List Byte)) : Prop :=
  ∃ k t, Host.Core.run core k s = .next t ∧ DecompressEnds s r t

theorem run_succ_of_step {s s' : State} (h : step s = .next s') (k : Nat) :
    Host.Core.run core (k + 1) s = Host.Core.run core k s' := by
  have hcore : core.step s = .next s' := h
  simp only [Host.Core.run, hcore]

section
variable {s t : State} {b : List Byte} {c : Cause}

theorem DecompressEnds.of_ok (h : oneShotOk 0x20 (.bytes b) s t) : DecompressEnds s (.ok b) t := by
  obtain ⟨hok, hconfig, hw, hr, -, hframe⟩ := h
  refine ⟨?_, nofun, hconfig, hw, hr, hframe⟩
  rintro _ ⟨⟩
  exact hok

theorem DecompressEnds.of_error (h : oneShotError 0x20 c s t) : DecompressEnds s (.error c) t := by
  obtain ⟨herror, hframe⟩ := h
  refine ⟨nofun, ?_, hframe⟩
  rintro _ ⟨⟩
  exact herror

theorem decompressRuns_of_step {r : Except Cause (List Byte)} (hstep : step s = .next t)
    (hends : DecompressEnds s r t) : DecompressRuns s r :=
  ⟨1, t, run_succ_of_step hstep 0, hends⟩

theorem decompressRuns_of_fails (he : s.engine = .decompressing)
    (h : ∃ t, step s = .next t ∧ decodeFails c s t) : DecompressRuns s (.error c) := by
  obtain ⟨t, hstep, hfails, -⟩ := h
  exact decompressRuns_of_step hstep (.of_error (hfails he))

/-- A step that writes the decoder's registers alone leaves the result to the steps after it. -/
theorem DecompressRuns.of_setDec {d : Decoder} {r : Except Cause (List Byte)}
    (hstep : step s = .next (s.setDec d)) (h : DecompressRuns (s.setDec d) r) :
    DecompressRuns s r := by
  obtain ⟨k, t, hrun, hends⟩ := h
  exact ⟨k + 1, t, (run_succ_of_step hstep k).trans hrun, hends⟩

/-- At the end of `SRC` the machine and `decodeLoop` both compare the lengths. -/
theorem decompressRuns_of_end (he : s.engine = .decompressing)
    (hend : s.dec.src.length ≤ s.dec.pc) (fuel : Nat) :
    DecompressRuns s (decodeLoop s.dec.len fuel (s.dec.src.drop s.dec.pc) s.dec.dst) := by
  obtain ⟨hok, hshort⟩ := decompressEndsWithItsBytes s he hend
  rw [List.drop_eq_nil_of_le hend, decodeLoop_nil]
  split
  · next hlen =>
    obtain ⟨t, hstep, hends⟩ := hok hlen
    exact decompressRuns_of_step hstep (.of_ok hends)
  · next hlen =>
    obtain ⟨t, hstep, hends⟩ := hshort hlen
    exact decompressRuns_of_step hstep (.of_error hends)

/-- The machine's decode loop follows `decodeLoop`, one element a step. -/
theorem decompressRuns_decodeLoop {fuel : Nat} (he : s.engine = .decompressing)
    (hfuel : (s.dec.src.drop s.dec.pc).length ≤ fuel) :
    DecompressRuns s (decodeLoop s.dec.len fuel (s.dec.src.drop s.dec.pc) s.dec.dst) := by
  rw [List.length_drop] at hfuel
  induction fuel generalizing s with
  | zero => exact decompressRuns_of_end he (by omega) 0
  | succ fuel ih =>
    have hs : decoding s := .inl he
    by_cases hend : s.dec.src.length ≤ s.dec.pc
    · exact decompressRuns_of_end he hend _
    have hpc : s.dec.pc < s.dec.src.length := Nat.lt_of_not_le hend
    have hne : s.dec.src.drop s.dec.pc ≠ [] := mt List.drop_eq_nil_iff.mp hend
    rw [decodeLoop, if_neg hne]
    cases hdecode : decodeElem (s.dec.src.drop s.dec.pc) with
    | error c => exact decompressRuns_of_fails he (step_fails_of_cut hs hpc hdecode)
    | ok x =>
      obtain ⟨i, k⟩ := x
      obtain ⟨hi, rfl, hk, -⟩ := decodeElem_ok hdecode
      have hexec := step_of_element hs hpc hdecode
      cases heffect : elementEffect s.dec.len i s.dec.dst with
      | error c =>
        simp only [heffect]
        exact decompressRuns_of_fails he (hexec ▸ exec_element_fails hs hi heffect)
      | ok dst =>
        simp only [heffect, List.drop_drop]
        exact .of_setDec (hexec.trans (exec_element_ok hs hi heffect))
          (ih he (by simp only [State.setDec_dec]; omega))

end

/-- Settles O17: the header's errors end the command at once, and the decode loop follows
`decodeLoop`. -/
theorem decompressRunsToItsResult : Obligations.DecompressRunsToItsResult := by
  intro s c rest he hq hcode
  have hcommand : decodeCommand c = .ok (.decompress c.src) := by simp [decodeCommand, hcode]
  have hstep : step s = exec (.decompress c.src) (s.setCommands rest) :=
    step_of_command he hq hcommand
  show ∃ k t, Host.Core.run core k s = .next t ∧
    DecompressEnds (s.setCommands rest) (decompressed s.cfgMaxDecode c.src) t
  cases hheader : decompressHeader s.cfgMaxDecode c.src with
  | error e =>
    obtain ⟨t, hexec, herror⟩ := exec_decompress_of_error (s := s.setCommands rest) hheader
    rw [decompressed, hheader]
    exact ⟨1, t, run_succ_of_step (hstep.trans hexec) 0, .of_error herror⟩
  | ok x =>
    obtain ⟨len, h⟩ := x
    have hexec := exec_decompress_of_ok (s := s.setCommands rest) hheader
    have hfuel : (c.src.drop h).length ≤ c.src.length := (List.drop_sublist ..).length_le
    obtain ⟨k, t, hrun, hends⟩ := decompressRuns_decodeLoop
      (s := (startDecode c.src len h (s.setCommands rest)).setEngine .decompressing) rfl hfuel
    rw [decompressed, hheader]
    exact ⟨k + 1, t, (run_succ_of_step (hstep.trans hexec) k).trans hrun, hends⟩

end Sys2Proof.Machine

namespace Sys2Proof.Machine

/-! ### The checksum register tells apart what it has absorbed (R291, R292, R297) -/

/-- The reflected polynomial has bit 31 set and the shift leaves it clear, so the bit shifted out can be
read off the result. -/
theorem crcBit_msb (c : Word32) : (crcBit c).getLsbD 31 = c.getLsbD 0 := by
  unfold crcBit
  split <;> simp_all

theorem crcBit_injective : Function.Injective crcBit := by
  intro c d h
  have hlow : c.getLsbD 0 = d.getLsbD 0 := by rw [← crcBit_msb, h, crcBit_msb]
  have hshift : c >>> 1 = d >>> 1 := by
    unfold crcBit at h
    rw [hlow] at h
    split at h
    · exact (BitVec.xor_left_inj _).mp h
    · exact h
  refine BitVec.eq_of_getLsbD_eq fun i _ => ?_
  cases i with
  | zero => exact hlow
  | succ j => simpa [Nat.add_comm 1] using congrArg (·.getLsbD j) hshift

theorem crcBits_injective : ∀ k, Function.Injective (crcBits k)
  | 0 => Function.injective_id
  | k + 1 => (crcBits_injective k).comp crcBit_injective

/-- After one byte the register still determines what it was before it. -/
theorem crcStep_left_injective (b : Byte) : Function.Injective (crcStep · b) :=
  fun _ _ h => (BitVec.xor_left_inj _).mp (crcBits_injective 8 h)

/-- From one register, different bytes lead to different registers. -/
theorem crcStep_right_injective (crc : Word32) : Function.Injective (crcStep crc) := by
  intro x y h
  have hwide : x.setWidth 32 = y.setWidth 32 := (BitVec.xor_right_inj _).mp (crcBits_injective 8 h)
  simpa using congrArg (BitVec.setWidth 8) hwide

theorem foldl_crcStep_injective (bs : List Byte) : Function.Injective (bs.foldl crcStep) := by
  induction bs with
  | nil => exact Function.injective_id
  | cons b bs ih => exact ih.comp (crcStep_left_injective b)

theorem crcRegister_append (a b : List Byte) :
    crcRegister (a ++ b) = b.foldl crcStep (crcRegister a) :=
  List.foldl_append

theorem crc32c_inj {u v : List Byte} : crc32c u = crc32c v ↔ crcRegister u = crcRegister v :=
  BitVec.xor_left_inj _

/-! ### The mask is an invertible rotation and an invertible addition (R294) -/

theorem maskCrc_eq_rotateRight (c : Word32) : maskCrc c = c.rotateRight 15 + 0xA282EAD8 := rfl

/-- Rotation to the left undoes rotation to the right. -/
theorem rotateLeft_rotateRight {w : Nat} (c : BitVec w) (r : Nat) :
    (c.rotateRight r).rotateLeft r = c := by
  ext i hi
  have hr : r % w < w := Nat.mod_lt _ (by omega)
  rw [BitVec.getElem_rotateLeft]
  split
  case isTrue hwrapped => simp [BitVec.getElem_rotateRight]
  case isFalse hkept =>
    have hin : i - r % w < w - r % w := by omega
    simp [BitVec.getElem_rotateRight, hin, show r % w + (i - r % w) = i by omega]

theorem rotateRight_bijective (r : Nat) :
    Function.Bijective fun c : Word32 => c.rotateRight r :=
  Finite.injective_iff_bijective.mp
    (Function.LeftInverse.injective (g := (·.rotateLeft r)) (rotateLeft_rotateRight · r))

theorem maskCrc_bijective : Function.Bijective maskCrc :=
  (Equiv.addRight (0xA282EAD8 : Word32)).bijective.comp (rotateRight_bijective 15)

theorem chk_inj {u v : List Byte} : chk u = chk v ↔ crcRegister u = crcRegister v :=
  maskCrc_bijective.injective.eq_iff.trans crc32c_inj

/-- Settles O24: the two registers agree before the changed byte, differ after it, and the bytes that
follow keep them apart. -/
theorem oneByteChangeChangesChecksum : Obligations.OneByteChangeChangesChecksum := by
  intro before after x y hxy hchk
  have hregister := chk_inj.mp hchk
  simp only [crcRegister_append, List.foldl_cons, List.foldl_nil] at hregister
  exact hxy (crcStep_right_injective _ (foldl_crcStep_injective after hregister))

/-- Settles O25: rotation and addition are each a bijection, and the shifts of R294 are that rotation. -/
theorem maskIsBijective : Obligations.MaskIsBijective :=
  ⟨maskCrc_bijective, maskCrc_eq_rotateRight⟩

/-- Settles O26: each value is one evaluation of the engine. -/
theorem checksumKnownValues : Obligations.ChecksumKnownValues :=
  ⟨by decide, by decide, by decide +kernel, by decide, by decide +kernel⟩

end Sys2Proof.Machine

namespace Sys2Proof.Machine
open Sys2Proof.Spec

/-! ### The source's bytes as a data chunk (R113, R115, R353) -/

/-- A source that gives `a ++ b` gives `a`, and then `b`. -/
theorem takeBytes_append {a b : List Byte} {q q' : Source}
    (h : takeBytes (a ++ b).length q = some (a ++ b, q')) :
    ∃ q₁, takeBytes a.length q = some (a, q₁) ∧ takeBytes b.length q₁ = some (b, q') := by
  induction a generalizing q with
  | nil => exact ⟨q, rfl, h⟩
  | cons x a ih =>
    obtain ⟨y, q₁, cs, hnext, hrest, heq⟩ := takeBytes_succ_eq_some h
    obtain ⟨rfl, rfl⟩ := List.cons.inj heq
    obtain ⟨q₂, ha, hb⟩ := ih hrest
    exact ⟨q₂, by rw [List.length_cons, takeBytes_succ_of_nextByte hnext, ha]; rfl, hb⟩

theorem decodeChunk_chunkHeader {len : Nat} (hlen : len < 256 ^ 3) (ty : Byte) :
    decodeChunk (chunkHeader ty len) = .ok (chunkOf ty len) := by
  show Except.ok (chunkOf ty (leValue (leBytes 3 len))) = _
  rw [leValue_leBytes, Nat.mod_eq_of_lt hlen]

theorem dataChunkBytes_eq (ty : Byte) (u data : List Byte) :
    dataChunkBytes ty u data = chunkHeader ty (4 + data.length) ++ (chkBytes u ++ data) :=
  List.append_assoc ..

@[simp] theorem chkBytes_length (u : List Byte) : (chkBytes u).length = 4 := leBytes_length ..

theorem dataChunkBytes_length (ty : Byte) (u data : List Byte) :
    (dataChunkBytes ty u data).length = 4 + (4 + data.length) := by
  rw [dataChunkBytes_eq, List.length_append, List.length_append, chunkHeader_length,
    chkBytes_length]

@[simp] theorem take_chkBytes_append (u data : List Byte) :
    (chkBytes u ++ data).take 4 = chkBytes u :=
  List.take_left' (chkBytes_length u)

@[simp] theorem drop_chkBytes_append (u data : List Byte) : (chkBytes u ++ data).drop 4 = data :=
  List.drop_left' (chkBytes_length u)

/-- FR_READ's loop reads the header of the data chunk that comes next, and runs the chunk from where
its payload begins (R352). -/
theorem step_of_dataChunk {s : State} {max : Word64} {ty : Byte} {u data : List Byte} {q : Source}
    (he : s.engine = .reading max) (hp : s.r.pending = []) (hlen : 4 + data.length < 256 ^ 3)
    (hs : takeBytes (dataChunkBytes ty u data).length s.source
      = some (dataChunkBytes ty u data, q)) :
    ∃ q₁, step s = exec (chunkOf ty (4 + data.length)) (took 4 q₁ s) ∧
      takeBytes (4 + data.length) q₁ = some (chkBytes u ++ data, q) := by
  rw [dataChunkBytes_eq] at hs
  obtain ⟨q₁, hheader, hpayload⟩ := takeBytes_append hs
  rw [chunkHeader_length] at hheader
  rw [List.length_append, chkBytes_length] at hpayload
  exact ⟨q₁, step_of_chunk he hp (sourceReadExact_of_takeBytes hheader)
    (decodeChunk_chunkHeader hlen ty), hpayload⟩

/-! ### Runs of the machine -/

/-- Some number of steps lead from the one state to the other. -/
def Reaches : State → State → Prop := Relation.ReflTransGen fun s t => step s = .next t

theorem Reaches.run {s t : State} (h : Reaches s t) : ∃ k, Host.Core.run core k s = .next t := by
  induction h using Relation.ReflTransGen.head_induction_on with
  | refl => exact ⟨0, rfl⟩
  | head hstep _ ih =>
    obtain ⟨k, hk⟩ := ih
    exact ⟨k + 1, (run_succ_of_step hstep k).trans hk⟩

/-- A decode loop that stands before an encoded sequence runs it to the end of `SRC`, one element a
step, and has then written its replay (R244). -/
theorem reaches_of_encodeElems {is : List Instr} {s : State} {u : List Byte} (hs : decoding s)
    (hsrc : s.dec.src.drop s.dec.pc = encodeElems is) (his : Writes is s.dec.dst u)
    (hlen : u.length ≤ s.dec.len) :
    ∃ pc, s.dec.src.length ≤ pc ∧ Reaches s (s.setDec { s.dec with dst := u, pc := pc }) := by
  obtain ⟨helements, hreplays⟩ := his
  induction is generalizing s with
  | nil =>
    cases hreplays
    exact ⟨s.dec.pc, List.drop_eq_nil_iff.mp hsrc, .refl⟩
  | cons i is ih =>
    obtain ⟨⟨hi, hwf⟩, helements⟩ := List.forall_mem_cons.mp helements
    obtain ⟨mid, hrest, -, heffect⟩ := replay_cons hreplays
    rw [encodeElems_cons] at hsrc
    have hdecode : decodeElem (s.dec.src.drop s.dec.pc) = .ok (i, (encodeElem i).length) :=
      hsrc ▸ decodeElem_encodeElem hi hwf (encodeElems is)
    have hpc : s.dec.pc < s.dec.src.length := by
      have hpos := encodeElem_length_pos hi hwf
      have hdrop := congrArg List.length hsrc
      rw [List.length_drop, List.length_append] at hdrop
      omega
    have hstep := (step_of_element hs hpc hdecode).trans
      (exec_element_ok hs hi (heffect _ ((replay_length_le hrest).trans hlen)))
    have hnext : s.dec.src.drop (s.dec.pc + i.size) = encodeElems is := by
      rw [← List.drop_drop, hsrc, ← encodeElem_length hi, List.drop_left]
    obtain ⟨pc, hend, hreach⟩ :=
      ih (s := s.setDec { s.dec with dst := mid, pc := s.dec.pc + i.size }) hs hnext hlen
        helements hrest
    exact ⟨pc, hend, .head hstep hreach⟩

/-! ### A written chunk read back (O45) -/

/-- From `s` FR_READ's loop has come to `t`: the bytes `u` are pending, and `n` more bytes of the
source are consumed, which stands at `q`. -/
def ReadsBack (max : Word64) (u : List Byte) (n : Nat) (q : Source) (s t : State) : Prop :=
  t.engine = .reading max ∧ t.r = { s.r with pending := u, consumed := s.r.consumed + n } ∧
    t.source = q ∧ t.responses = s.responses ∧ t.w = s.w ∧ t.sink = s.sink

section
variable {s t : State} {max : Word64} {u : List Byte} {q : Source}

theorem ReadsBack.of_took {m n : Nat} {q₁ : Source} (h : ReadsBack max u n q (took m q₁ s) t) :
    ReadsBack max u (m + n) q s t := by
  obtain ⟨he, hr, hframe⟩ := h
  refine ⟨he, hr.trans ?_, hframe⟩
  rw [← Nat.add_assoc]
  rfl

/-- The decode of a chunk's elements ends with the bytes they write pending, when those are what the
stored checksum is of (R244, R360). -/
theorem chunkDecode_readsBack {is : List Instr} (he : s.engine = .decodingChunk max (chkBytes u))
    (hsrc : s.dec.src.drop s.dec.pc = encodeElems is) (his : Writes is s.dec.dst u)
    (hlen : s.dec.len = u.length) : ∃ t, Reaches s t ∧ ReadsBack max u 0 s.source s t := by
  obtain ⟨pc, hend, hdecode⟩ :=
    reaches_of_encodeElems (.inr ⟨max, chkBytes u, he⟩) hsrc his hlen.ge
  obtain ⟨-, haccepts, -⟩ := compressedChunkEndsWithItsChecksum
    (s.setDec { s.dec with dst := u, pc := pc }) max (chkBytes u) he hend
  obtain ⟨t, hstep, ht⟩ := haccepts hlen.symm rfl
  exact ⟨t, hdecode.tail hstep, ht ▸ ⟨rfl, rfl, rfl, rfl, rfl, rfl⟩⟩

variable (he : s.engine = .reading max) (hs : anyChunkAllowed s)
include he hs

theorem exec_chunkUncompressed_readsBack (hu : u.length ≤ Config.chunkMax)
    (hp : takeBytes (4 + u.length) s.source = some (chkBytes u ++ u, q)) :
    ∃ t, exec (.chunkUncompressed (4 + u.length)) s = .next t ∧
      ReadsBack max u (4 + u.length) q s t := by
  have hhigh : 4 + u.length ≤ 65540 := Nat.add_le_add_left hu 4
  obtain ⟨hdata, -⟩ := uncompressedChunkYieldsItsData s max _ _ q he hs (Nat.le_add_right ..)
    hhigh hp
  rw [take_chkBytes_append, drop_chkBytes_append] at hdata
  obtain ⟨t, hexec, ht⟩ := hdata rfl
  exact ⟨t, hexec, ht ▸ ⟨he, rfl, rfl, rfl, rfl, rfl⟩⟩

theorem exec_chunkCompressed_rawStream {body : List Byte} (hu : u.length ≤ Config.chunkMax)
    (hz : (rawStream u body).length ≤ compressedChunkMax)
    (hp : takeBytes (4 + (rawStream u body).length) s.source
      = some (chkBytes u ++ rawStream u body, q)) :
    exec (.chunkCompressed (4 + (rawStream u body).length)) s =
      .next ((startDecode (rawStream u body) u.length
        (varintEncode (BitVec.ofNat 64 u.length)).length
        (took (4 + (rawStream u body).length) q s)).setEngine
          (.decodingChunk max (chkBytes u))) := by
  have hn : (BitVec.ofNat 64 u.length).toNat = u.length := by
    rw [BitVec.toNat_ofNat, Nat.mod_eq_of_lt (hu.trans_lt (by decide))]
  have hhigh : 4 + (rawStream u body).length ≤ 76494 := Nat.add_le_add_left hz 4
  obtain ⟨hstarts, -⟩ := compressedChunkStartsItsDecode s max _ _ q he hs (Nat.le_add_right ..)
    hhigh hp
  rw [take_chkBytes_append, drop_chkBytes_append] at hstarts
  have hexec := hstarts _ _ (varintDecode_varintEncode _ _) (hn.trans_le hu)
  rwa [hn] at hexec

theorem exec_chunkCompressed_readsBack {body : List Byte} (hbody : Conforming u body)
    (hu : u.length ≤ Config.chunkMax) (hz : (rawStream u body).length ≤ compressedChunkMax)
    (hp : takeBytes (4 + (rawStream u body).length) s.source
      = some (chkBytes u ++ rawStream u body, q)) :
    ∃ s' t, exec (.chunkCompressed (4 + (rawStream u body).length)) s = .next s' ∧ Reaches s' t ∧
      ReadsBack max u (4 + (rawStream u body).length) q s t := by
  have hexec := exec_chunkCompressed_rawStream he hs hu hz hp
  obtain ⟨⟨is, rfl, hwrites⟩, -⟩ := hbody
  obtain ⟨t, hreach, hback⟩ := chunkDecode_readsBack (u := u)
    (s := (startDecode (rawStream u (encodeElems is)) u.length _
      (took (4 + (rawStream u (encodeElems is)).length) q s)).setEngine (.decodingChunk max _))
    rfl List.drop_left hwrites rfl
  exact ⟨_, t, hexec, hreach, hback⟩

variable (hpending : s.r.pending = []) (hu : u.length ≤ Config.chunkMax)
include hpending hu

theorem uncompressedChunk_readsBack
    (hchunk : takeBytes (dataChunkBytes 0x01 u u).length s.source
      = some (dataChunkBytes 0x01 u u, q)) :
    ∃ t, Reaches s t ∧ ReadsBack max u (dataChunkBytes 0x01 u u).length q s t := by
  have hfits : 4 + u.length < 256 ^ 3 := (Nat.add_le_add_left hu 4).trans_lt (by decide)
  obtain ⟨q₁, hstep, hpayload⟩ := step_of_dataChunk he hpending hfits hchunk
  obtain ⟨t, hexec, hback⟩ := exec_chunkUncompressed_readsBack (s := took 4 q₁ s) he hs hu hpayload
  rw [dataChunkBytes_length]
  exact ⟨t, .single (hstep.trans hexec), hback.of_took⟩

/-- A compressed chunk is read back in one step for its header, one for each element of its body, and
one for its end. -/
theorem compressedChunk_readsBack {body : List Byte} (hbody : Conforming u body)
    (hz : (rawStream u body).length ≤ compressedChunkMax)
    (hchunk : takeBytes (dataChunkBytes 0x00 u (rawStream u body)).length s.source
      = some (dataChunkBytes 0x00 u (rawStream u body), q)) :
    ∃ t, Reaches s t ∧
      ReadsBack max u (dataChunkBytes 0x00 u (rawStream u body)).length q s t := by
  have hfits : 4 + (rawStream u body).length < 256 ^ 3 :=
    (Nat.add_le_add_left hz 4).trans_lt (by decide)
  obtain ⟨q₁, hstep, hpayload⟩ := step_of_dataChunk he hpending hfits hchunk
  obtain ⟨s', t, hexec, hreach, hback⟩ :=
    exec_chunkCompressed_readsBack (s := took 4 q₁ s) he hs hbody hu hz hpayload
  rw [dataChunkBytes_length]
  exact ⟨t, .head (hstep.trans hexec) hreach, hback.of_took⟩

end

/-- Settles O45: the chunk is read back in the form the writer chose; a compressed one is smaller than
its raw bytes, and its body conforms under every policy. -/
theorem writtenChunkReadsBack : Obligations.WrittenChunkReadsBack := by
  intro s max p enc u q he hpending hs _ hu chunk hchunk
  have hreads : ∃ t, Reaches s t ∧ ReadsBack max u chunk.length q s t := by
    by_cases hform : sendsUncompressed p.fallback u.length (compressed p.encoder u enc).1.length
    · have hc : chunk = dataChunkBytes 0x01 u u := if_pos hform
      rw [hc] at hchunk ⊢
      exact uncompressedChunk_readsBack he hs hpending hu hchunk
    · have hc : chunk = dataChunkBytes 0x00 u (compressed p.encoder u enc).1 := if_neg hform
      have hsmaller := lt_of_not_sendsUncompressed hform
      rw [hc] at hchunk ⊢
      exact compressedChunk_readsBack he hs hpending hu
        (conforming_encoderBody (hu.trans (by decide)) p.encoder enc)
        (hsmaller.le.trans (hu.trans (by decide))) hchunk
  obtain ⟨t, hreach, hback⟩ := hreads
  obtain ⟨k, hk⟩ := hreach.run
  exact ⟨k, t, hk, hback⟩

end Sys2Proof.Machine

namespace Sys2Proof.Machine
open Sys2Proof.Spec

/-! ### The writer commands behind their entry check (R310) -/

section
variable (src : List Byte) (s : State)

theorem exec_fwWrite : exec (.fwWrite src) s = writerEntry cmdFwWrite s fun s =>
    endWriter cmdFwWrite (.count (BitVec.ofNat 64 src.length)) (writeBytes src s) := rfl

theorem exec_fwFlush : exec .fwFlush s = writerEntry cmdFwFlush s fun s =>
    endWriter cmdFwFlush .none (flushBuffer s) := rfl

theorem exec_fwClose : exec .fwClose s = writerEntry cmdFwClose s fun s =>
    endWriter cmdFwClose .none (closeWriter (flushBuffer s)) := rfl

end

theorem exec_fwWrite_eq_endWriter {s : State} (ho : s.w.phase = .opened) (src : List Byte) :
    exec (.fwWrite src) s = .next (endWriter cmdFwWrite (.count (BitVec.ofNat 64 src.length))
      (writeBytes src s)) :=
  (exec_fwWrite src s).trans (writerEntry_of_opened ho ..)

/-! ### Bytes that do not fill the buffer (O27) -/

theorem writeBytes_of_short {src : List Byte} {s : State}
    (hlen : s.w.buf.length + src.length < Config.chunkMax) :
    writeBytes src s = .done (s.setW { s.w with buf := s.w.buf ++ src }) := by
  induction src generalizing s with
  | nil => rw [List.append_nil]; rfl
  | cons b rest ih =>
    have hroom : (s.w.buf ++ [b]).length + rest.length < Config.chunkMax := by
      simp only [List.length_append, List.length_cons, List.length_nil] at hlen ⊢
      omega
    rw [writeBytes_cons_of_not_full (by omega), ih hroom]
    simp [State.setW]

/-- Settles O27: no byte fills the buffer. -/
theorem writeBuffersShortInput : Obligations.WriteBuffersShortInput := by
  intro src s ho hlen
  refine ⟨_, exec_fwWrite_eq_endWriter ho src, ?_⟩
  rw [writeBytes_of_short hlen]
  exact ⟨completedOk_of_responses rfl, rfl, rfl, rfl, ⟨rfl, rfl⟩, ⟨rfl, rfl⟩,
    rfl, rfl, rfl, rfl, rfl⟩

/-! ### A write in two pieces (O29)

The second piece is written from a state that differs from the one in the middle of a single write
by the first piece's response. No step of a write reads what a response changes, so the two writes
stay alike to their ends.
-/

/-- An attempt goes on from where it is done. -/
def Attempt.andThen (f : State → Attempt) : Attempt → Attempt
  | .done s => f s
  | .failed c s => .failed c s

/-- The attempt, the state it ends in changed. -/
def Attempt.map (g : State → State) : Attempt → Attempt
  | .done s => .done (g s)
  | .failed c s => .failed c (g s)

/-- A change that the next steps carry along may be made before or after them. -/
theorem Attempt.andThen_map {f : State → Attempt} {g : State → State}
    (h : ∀ s, f (g s) = (f s).map g) (a : Attempt) :
    (a.map g).andThen f = (a.andThen f).map g := by
  cases a with
  | done s => exact h s
  | failed c s => rfl

theorem emitChunk_eq_andThen (s : State) :
    emitChunk s = (sendIdent (s.setW { s.w with buf := [] })).andThen (sendData s.w.buf) := by
  unfold emitChunk
  split <;> simp only [*, Attempt.andThen]

theorem writeBytes_append (a b : List Byte) (s : State) :
    writeBytes (a ++ b) s = (writeBytes a s).andThen (writeBytes b) := by
  induction a generalizing s with
  | nil => rfl
  | cons x a ih =>
    simp only [List.cons_append, writeBytes, ih]
    split
    · split <;> rfl
    · rfl

/-- What the end of a command changes (R406), the result and the responses being given. -/
def answered (status : Status) (responses : List Response) (s : State) : State :=
  ((s.setStatus status).setResponses responses).setEngine .idle

theorem complete_eq_answered (cmd : Byte) (res : Results) (s : State) :
    complete cmd res s = answered ⟨none, cmd⟩ (s.responses ++ [.ok res]) s := rfl

section
variable (status : Status) (responses : List Response)

theorem sinkWriteLoop_answered (fuel : Nat) (b : List Byte) (s : State) :
    sinkWriteLoop fuel b (answered status responses s) =
      (sinkWriteLoop fuel b s).map (answered status responses) := by
  induction fuel generalizing b s with
  | zero => cases b <;> rfl
  | succ fuel ih =>
    cases b with
    | nil => rfl
    | cons x xs =>
      obtain ⟨answer, q, h⟩ : ∃ a q, s.sinkScript.answer (xs.length + 1) = (a, q) := ⟨_, _, rfl⟩
      have h' : (answered status responses s).sinkScript.answer (xs.length + 1) = (answer, q) := h
      match answer with
      | .ioFail => rw [sinkWriteLoop_of_ioFail h, sinkWriteLoop_of_ioFail h']; rfl
      | .accept 0 => rw [sinkWriteLoop_of_zero h, sinkWriteLoop_of_zero h']; rfl
      | .accept (a + 1) =>
        rw [sinkWriteLoop_of_accept h, sinkWriteLoop_of_accept h']
        exact ih (xs.drop a) (sent ((x :: xs).take (a + 1)) q s)

theorem sinkWriteAll_answered (b : List Byte) (s : State) :
    sinkWriteAll b (answered status responses s) =
      (sinkWriteAll b s).map (answered status responses) :=
  sinkWriteLoop_answered status responses b.length b s

theorem sendIdent_answered (s : State) :
    sendIdent (answered status responses s) =
      (sendIdent s).map (answered status responses) := by
  have hw : (answered status responses s).w = s.w := rfl
  unfold sendIdent
  rw [sinkWriteAll_answered, hw]
  split
  · rfl
  · cases sinkWriteAll identChunk s <;> rfl

theorem sendData_answered (u : List Byte) (s : State) :
    sendData u (answered status responses s) =
      (sendData u s).map (answered status responses) :=
  sinkWriteAll_answered status responses _ (chunkMade u s)

theorem emitChunk_answered (s : State) :
    emitChunk (answered status responses s) =
      (emitChunk s).map (answered status responses) := by
  rw [emitChunk_eq_andThen, emitChunk_eq_andThen s,
    ← Attempt.andThen_map (sendData_answered status responses _), ← sendIdent_answered]
  rfl

theorem writeBytes_singleton_answered (b : Byte) (s : State) :
    writeBytes [b] (answered status responses s) =
      (writeBytes [b] s).map (answered status responses) := by
  have hw : (answered status responses s).w = s.w := rfl
  by_cases h : (s.w.buf ++ [b]).length = Config.chunkMax
  · rw [writeBytes_singleton_of_full h, writeBytes_singleton_of_full (hw ▸ h)]
    exact emitChunk_answered status responses (s.setW { s.w with buf := s.w.buf ++ [b] })
  · rw [writeBytes_cons_of_not_full h, writeBytes_cons_of_not_full (hw ▸ h)]
    rfl

theorem writeBytes_answered (src : List Byte) (s : State) :
    writeBytes src (answered status responses s) =
      (writeBytes src s).map (answered status responses) := by
  induction src generalizing s with
  | nil => rfl
  | cons b rest ih =>
    rw [← List.singleton_append, writeBytes_append, writeBytes_append,
      writeBytes_singleton_answered, Attempt.andThen_map ih]

/-- An earlier response, and the count a write reports, leave no mark on what the session, the sink
and the result are at the end. -/
theorem endWriter_map_answered (cmd : Byte) (res res' : Results) (a : Attempt) :
    let t := endWriter cmd res (a.map (answered status responses))
    let t' := endWriter cmd res' a
    t.w = t'.w ∧ t.sink = t'.sink ∧ t.sinkScript = t'.sinkScript ∧
      t.status.result = t'.status.result := by
  cases a <;> exact ⟨rfl, rfl, rfl, rfl⟩

end

/-- Settles O29: one write is the two pieces one after the other, but for the first piece's
response. -/
theorem writeInPiecesIsTheSame : Obligations.WriteInPiecesIsTheSame := by
  intro a b s t ho ha
  have hrun := writeBytes_runs a (s := s) (p := False) False.elim
  have happend := exec_fwWrite_eq_endWriter ho (a ++ b)
  rw [exec_fwWrite_eq_endWriter ho] at ha
  rw [writeBytes_append] at happend
  cases hfirst : writeBytes a s with
  | done s' =>
    rw [hfirst] at hrun ha happend
    cases ha
    obtain ⟨hrun, -⟩ | - := hrun
    have ho' := hrun.phase.trans ho
    refine ⟨fun ht => ⟨_, _, exec_fwWrite_eq_endWriter ht b, happend, ?_⟩,
      fun hne => absurd ho' hne⟩
    rw [endWriter, complete_eq_answered, writeBytes_answered]
    exact endWriter_map_answered ..
  | failed c s' =>
    rw [hfirst] at hrun ha happend
    cases ha
    obtain - | ⟨-, hc⟩ := hrun
    refine ⟨fun ht => ?_, fun _ => happend⟩
    have hw := writerAfterRaise_of_sinkError (cmd := cmdFwWrite) rfl (of_decide_eq_true hc) s'.w
    cases ht.symm.trans (congrArg Writer.phase hw)

/-! ### Sessions that are not open (O31, O32) -/

section
variable {s : State} {cmd : Byte} (body : State → State)

theorem writerEntry_of_closed (h : s.w.phase = .closed) (hcmd : isWriterCmd cmd = true)
    (hne : cmd ≠ cmdFwClose) :
    ∃ t, writerEntry cmd s body = .next t ∧ oneShotError cmd .sessionClosed s t := by
  refine ⟨raise cmd .sessionClosed s, by simp only [writerEntry, h, if_neg hne], ?_⟩
  exact oneShotError_raise (writerAfterRaise_of_illegal rfl ..)
    (readerAfterRaise_of_ne (ne_frRead_of_isWriterCmd hcmd) ..)

theorem writerEntry_fwClose_of_closed (h : s.w.phase = .closed) :
    writerEntry cmdFwClose s body = .next (complete cmdFwClose .none s) := by
  simp only [writerEntry, h, if_pos]

/-- A failed session holds no bytes, so to fail again with the same error leaves it as it is (R310,
R324). -/
theorem writerEntry_of_failed {c : Cause} (h : s.w.phase = .failed c) (hok : writerOk s.w = true)
    (hcmd : isWriterCmd cmd = true) :
    ∃ t, writerEntry cmd s body = .next t ∧ oneShotError cmd c s t := by
  have hbuf : s.w.buf = [] := by
    simp only [writerOk, h, Bool.and_eq_true, decide_eq_true_eq] at hok
    exact hok.1
  have hcause := of_decide_eq_true (writerCause_of_writerOk h hok)
  have hw : writerAfterRaise cmd c s.w = s.w := by
    rw [writerAfterRaise_of_sinkError hcmd hcause, ← h, ← hbuf]
  refine ⟨raise cmd c s, by simp only [writerEntry, h], ?_⟩
  exact oneShotError_raise hw (readerAfterRaise_of_ne (ne_frRead_of_isWriterCmd hcmd) ..)

end

/-- Settles O31: the entry check answers before the command's own steps. -/
theorem closedSessionRefuses : Obligations.ClosedSessionRefuses := by
  intro src s h
  rw [exec_fwWrite, exec_fwFlush, exec_fwClose]
  exact ⟨writerEntry_of_closed _ h rfl (by decide), writerEntry_of_closed _ h rfl (by decide),
    _, writerEntry_fwClose_of_closed _ h, oneShotOk_complete ..⟩

/-- Settles O32: the entry check raises the session's error again. -/
theorem failedWriterRepeatsItsError : Obligations.FailedWriterRepeatsItsError := by
  intro src s c h hok p hp
  simp only [List.mem_cons, List.not_mem_nil, or_false] at hp
  obtain rfl | rfl | rfl := hp
  · exact exec_fwWrite src s ▸ writerEntry_of_failed _ h hok rfl
  · exact exec_fwFlush s ▸ writerEntry_of_failed _ h hok rfl
  · exact exec_fwClose s ▸ writerEntry_of_failed _ h hok rfl

end Sys2Proof.Machine

namespace Sys2Proof.Machine
open Sys2Proof.Spec

/-! ### A chunk that fails in its header or its payload (O37, O38, O44) -/

/-- Every chunk is checked, read and dispatched by `runChunk` under its own type (R352). -/
theorem exec_chunkOf (ty : Byte) (len : Nat) (s : State) :
    ∃ dispatch, exec (chunkOf ty len) s = runChunk ty len s dispatch := by
  have hty := ty.isLt
  unfold chunkOf
  split_ifs with hcompressed huncompressed _ _ hpad
  · obtain rfl : ty = 0x00 := BitVec.eq_of_toNat_eq hcompressed
    exact ⟨_, rfl⟩
  · obtain rfl : ty = 0x01 := BitVec.eq_of_toNat_eq huncompressed
    exact ⟨_, rfl⟩
  · exact ⟨_, rfl⟩
  · exact ⟨_, rfl⟩
  · obtain rfl : ty = 0xFE := BitVec.eq_of_toNat_eq hpad
    exact ⟨_, rfl⟩
  · obtain rfl : ty = 0xFF := BitVec.eq_of_toNat_eq (show ty.toNat = 255 by omega)
    exact ⟨_, rfl⟩

section
variable {s : State} {ty : Byte} {len : Nat}

theorem not_identMissing_of_anyChunkAllowed (hs : anyChunkAllowed s ∨ ty = 0xFF) :
    ¬ (s.reqIdent = true ∧ s.r.identSeen = false ∧ ty ≠ 0xFF) := by
  rintro ⟨hreq, hseen, hty⟩
  obtain (hreq' | hseen') | hty' := hs
  · simp [hreq] at hreq'
  · simp [hseen] at hseen'
  · exact hty hty'

theorem checkHeader_identMissing (hreq : s.reqIdent = true) (hseen : s.r.identSeen = false)
    (hty : ty ≠ 0xFF) : checkHeader ty len s = some .streamIdentMissing :=
  if_pos ⟨hreq, hseen, hty⟩

theorem checkHeader_reserved (hs : anyChunkAllowed s) (hlow : 0x02 ≤ ty.toNat)
    (hhigh : ty.toNat ≤ 0x7F) : checkHeader ty len s = some .reservedChunkType := by
  rw [checkHeader, if_neg (not_identMissing_of_anyChunkAllowed (.inl hs)), if_pos ⟨hlow, hhigh⟩]

theorem checkHeader_tooShort (hs : anyChunkAllowed s) (hty : ty = 0x00 ∨ ty = 0x01)
    (hlen : len < 4) : checkHeader ty len s = some .chunkTooShort := by
  have hdata : ¬ (0x02 ≤ ty.toNat ∧ ty.toNat ≤ 0x7F) := by
    obtain rfl | rfl := hty <;> decide
  rw [checkHeader, if_neg (not_identMissing_of_anyChunkAllowed (.inl hs)), if_neg hdata,
    if_pos ⟨hty, hlen⟩]

theorem checkHeader_tooLong (hs : anyChunkAllowed s)
    (h : (ty = 0x01 ∧ 65540 < len) ∨ (ty = 0x00 ∧ 76494 < len)) :
    checkHeader ty len s = some .chunkTooLong := by
  rw [checkHeader, if_neg (not_identMissing_of_anyChunkAllowed (.inl hs))]
  obtain ⟨rfl, hlen⟩ | ⟨rfl, hlen⟩ := h
  · have hmax : len - 4 > Config.chunkMax := by simp only [Config.chunkMax]; omega
    have hlow : ¬ len < 4 := by omega
    simp [hlow, hmax]
  · have hmax : len - 4 > compressedChunkMax := by
      simp only [compressedChunkMax, bound, Config.chunkMax, Config.boundConst]; omega
    have hlow : ¬ len < 4 := by omega
    simp [hlow, hmax]

theorem checkHeader_identBad (hlen : len ≠ 6) :
    checkHeader 0xFF len s = some .streamIdentBad := by
  simp [checkHeader, hlen]

end

section
variable {s : State} {max : Word64} {ty : Byte} {len : Nat} (he : s.engine = .reading max)
include he

theorem runChunk_of_checkHeader {c : Cause} (hc : checkHeader ty len s = some c)
    (dispatch : Word64 → List Byte → State → State) :
    runChunk ty len s dispatch = .next (raise cmdFrRead c s) := by
  simp only [runChunk, he, hc]

/-- A chunk whose header is refused fails the session before a byte of its payload is read (R355). -/
theorem exec_chunkOf_fails_of_checkHeader {c : Cause} (hc : checkHeader ty len s = some c) :
    ∃ t, exec (chunkOf ty len) s = .next t ∧ readerFailed c 0 s.source s t := by
  obtain ⟨dispatch, hrun⟩ := exec_chunkOf ty len s
  exact ⟨_, hrun.trans (runChunk_of_checkHeader he hc dispatch), readerFailed_raise c 0 s.source s⟩

section
variable {n : Nat} {b : List Byte} {q q' : Source} (hs : anyChunkAllowed s ∨ ty = 0xFF)
variable (hpass : headerPasses ty len) (hn : n < len) (hb : takeBytes n s.source = some (b, q))
include hs hpass hn hb

theorem exec_chunkOf_fails_of_eof (hq : q.next = (.eof, q')) :
    ∃ t, exec (chunkOf ty len) s = .next t ∧ readerFailed .truncatedStream n q' s t := by
  obtain ⟨dispatch, hrun⟩ := exec_chunkOf ty len s
  refine ⟨raise cmdFrRead .truncatedStream (took n q' s), ?_, readerFailed_raise ..⟩
  simp only [hrun, runChunk, he, checkHeader_of_headerPasses hs hpass,
    sourceReadExact_of_eof hn hb hq]

theorem exec_chunkOf_fails_of_ioFail (hq : q.next = (.ioFail, q')) :
    ∃ t, exec (chunkOf ty len) s = .next t ∧ readerFailed .sourceIo n q' s t := by
  obtain ⟨dispatch, hrun⟩ := exec_chunkOf ty len s
  refine ⟨raise cmdFrRead .sourceIo (took n q' s), ?_, readerFailed_raise ..⟩
  simp only [hrun, runChunk, he, checkHeader_of_headerPasses hs hpass,
    sourceReadExact_of_ioFail hn hb hq]

end

end

/-- Settles O37: each clause names the first check that fails. -/
theorem headerChecksRunInOrder : Obligations.HeaderChecksRunInOrder := by
  intro s max ty len he
  refine ⟨fun hreq hseen hty => ?_, fun hs hlow hhigh => ?_, fun hs hty hlen => ?_,
    fun hs hlong => ?_, ?_⟩
  · exact exec_chunkOf_fails_of_checkHeader he (checkHeader_identMissing hreq hseen hty)
  · exact exec_chunkOf_fails_of_checkHeader he (checkHeader_reserved hs hlow hhigh)
  · exact exec_chunkOf_fails_of_checkHeader he (checkHeader_tooShort hs hty hlen)
  · exact exec_chunkOf_fails_of_checkHeader he (checkHeader_tooLong hs hlong)
  · rintro rfl hlen
    exact exec_chunkOf_fails_of_checkHeader he (checkHeader_identBad hlen)

/-- Settles O38: the header passes, and the payload's read ends with the source. -/
theorem cutPayloadIsTruncatedStream : Obligations.CutPayloadIsTruncatedStream := by
  intro s max ty len n b q q' he hs hpass hn hb
  exact ⟨exec_chunkOf_fails_of_eof he hs hpass hn hb,
    exec_chunkOf_fails_of_ioFail he hs hpass hn hb⟩

/-- Settles O44: the header check refuses the type. -/
theorem reservedChunkFailsTheReader : Obligations.ReservedChunkFailsTheReader := by
  intro s max ty len he hs hlow hhigh
  have hrun : exec (.chunkReserved ty len) s =
      .next (raise cmdFrRead .reservedChunkType s) :=
    runChunk_of_checkHeader he (checkHeader_reserved hs hlow hhigh) _
  exact ⟨_, hrun, readerFailed_raise _ 0 s.source s, rfl⟩

/-- Settles O42: the header of either type passes, and the payload is dispatched to nothing. -/
theorem skippableChunksAreDiscarded : Obligations.SkippableChunksAreDiscarded := by
  intro s max ty len p q he hs hlow hhigh hp i hi
  have hskip : headerPasses ty len := .inr (.inr (.inl ⟨hlow, by omega⟩))
  have hpad : headerPasses 0xFE len := .inr (.inr (.inl ⟨by decide, by decide⟩))
  obtain rfl | rfl : i = .chunkSkip ty len ∨ i = .chunkPad len := by simpa using hi
  · exact runChunk_of_takeBytes he (.inl hs) hskip hp _
  · exact runChunk_of_takeBytes he (.inl hs) hpad hp _

/-! ### The end of the source before and inside a header (O36) -/

section
variable {s t : State} {max : Word64} (he : s.engine = .reading max) (hp : s.r.pending = [])
include he hp

theorem step_of_clean_end (hread : sourceReadExact 4 s = .short [] t) :
    step s = .next (endOfStream t) := by
  simp [step, fetch, fetchChunk, he, hp, hread]

theorem step_of_cut_header {got : List Byte} (hgot : got ≠ [])
    (hread : sourceReadExact 4 s = .short got t) :
    step s = .next (raise cmdFrRead .truncatedStream t) := by
  simp [step, fetch, fetchChunk, he, hp, hread, hgot]

theorem step_of_failed_header (hread : sourceReadExact 4 s = .ioFail t) :
    step s = .next (raise cmdFrRead .sourceIo t) := by
  simp [step, fetch, fetchChunk, he, hp, hread]

end

/-- Settles O36: the bytes of a header that came before the end tell the two ends apart. -/
theorem sourceEndIsCleanOnlyBeforeHeader : Obligations.SourceEndIsCleanOnlyBeforeHeader := by
  intro s max n b q q' he hp hn hb
  have hlen : b.length = n := takeBytes_length hb
  refine ⟨fun hq hzero => ?_, fun hq hpos => ?_, fun hq => ?_⟩
  · subst hzero
    obtain rfl : b = [] := List.length_eq_zero_iff.mp hlen
    exact ⟨_, step_of_clean_end he hp (sourceReadExact_of_eof hn hb hq),
      completedOk_of_responses rfl, rfl, rfl, rfl, rfl, ⟨rfl, rfl⟩, ⟨rfl, rfl⟩, rfl, rfl, rfl, rfl⟩
  · have hgot : b ≠ [] := by
      rintro rfl
      exact hpos hlen.symm
    exact ⟨_, step_of_cut_header he hp hgot (sourceReadExact_of_eof hn hb hq),
      readerFailed_raise ..⟩
  · exact ⟨_, step_of_failed_header he hp (sourceReadExact_of_ioFail hn hb hq),
      readerFailed_raise ..⟩

/-! ### FR_READ's answers (O35) -/

/-- Delivery hands out the front of the pending bytes and keeps the others (R362). -/
theorem delivered_deliver (max : Word64) (s : State) : delivered max s (deliver max s) :=
  ⟨s.r.pending.take max.toNat, completedOk_of_responses rfl, List.take_append_drop ..,
    List.length_take, rfl, rfl, rfl, ⟨rfl, rfl⟩, ⟨rfl, rfl⟩, rfl, rfl, rfl, rfl, rfl⟩

section
variable {max : Word64} {s : State}

theorem exec_frRead_of_failed {c : Cause} (h : s.r.fail = some c) :
    exec (.frRead max) s = .next (raise cmdFrRead c s) := by
  simp only [exec, execFrRead, h]

theorem exec_frRead_zero (h : s.r.fail = none) :
    exec (.frRead 0) s = .next (complete cmdFrRead (.read [] false) s) := by
  simp only [exec, execFrRead, h, if_true]

theorem exec_frRead_eq_frLoop (h : s.r.fail = none) (hmax : max ≠ 0) :
    exec (.frRead max) s = .next (frLoop max s) := by
  simp only [exec, execFrRead, h, if_neg hmax]

theorem step_of_pending (he : s.engine = .reading max) (hp : s.r.pending ≠ []) :
    step s = .next (deliver max s) := by
  simp only [step, fetch, he, fetchChunk, if_pos hp]

end

/-- Settles O35: the failure, the operand and the pending bytes pick the branch. -/
theorem readAnswersOrStartsItsLoop : Obligations.ReadAnswersOrStartsItsLoop := by
  intro max s
  refine ⟨fun c hfail => ?_, ?_, fun hfail hmax hp => ?_, fun hfail hmax hp => ?_,
    fun he hp => ?_⟩
  · exact ⟨_, exec_frRead_of_failed hfail, readerFailed_raise c 0 s.source s⟩
  · rintro hfail rfl
    exact ⟨_, exec_frRead_zero hfail, oneShotOk_complete ..⟩
  · rw [exec_frRead_eq_frLoop hfail hmax, frLoop, if_neg hp]
    exact ⟨_, rfl, delivered_deliver max s⟩
  · rw [exec_frRead_eq_frLoop hfail hmax, frLoop, if_pos hp]
    rfl
  · exact ⟨_, step_of_pending he hp, delivered_deliver max s⟩

end Sys2Proof.Machine

namespace Sys2Proof.Machine
open Sys2Proof.Spec

/-! ### What the codes and flags of a register hold (R36, R430, R431) -/

theorem kindCode_lt (k : Kind) : kindCode k < 16 := by cases k <;> decide

theorem causeCode_lt (c : Cause) : causeCode c < 256 := by cases c <;> decide

theorem resultKindCode_lt : ∀ result : Option Cause, resultKindCode result < 16
  | none => Nat.two_pow_pos 4
  | some c => kindCode_lt (causeKind c)

theorem resultCauseCode_lt : ∀ result : Option Cause, resultCauseCode result < 256
  | none => Nat.two_pow_pos 8
  | some c => causeCode_lt c

theorem phaseCode_lt (p : WPhase) : phaseCode p < 4 := by cases p <;> simp [phaseCode]

theorem flagBit_lt (b : Bool) : flagBit b < 2 := by cases b <;> decide

theorem flagBit_isSome (result : Option Cause) :
    flagBit result.isSome = if result = none then 0 else 1 := by
  cases result <;> rfl

theorem ctrlWord_eq (reqIdent : Bool) : ctrlWord reqIdent = if reqIdent then 1 else 0 := by
  cases reqIdent <;> rfl

/-- Bit 0 of the value written is all that a read gives back (R34). -/
theorem ctrlWord_getLsbD_zero (v : Word32) : ctrlWord (v.getLsbD 0) = v &&& 1 := by
  calc ctrlWord (v.getLsbD 0)
      = BitVec.setWidth 32 (BitVec.ofBool (v.getLsbD 0)) := by cases v.getLsbD 0 <;> rfl
    _ = v &&& 1 := BitVec.and_one_eq_setWidth_ofBool_getLsbD.symm

/-! ### The fields of a register word (R35 to R37) -/

/-- Every bit of STATUS belongs to KIND, CAUSE, LAST_CMD or a reserved field (R35). -/
theorem statusWord_fields (st : Status) :
    bitsOf (statusWord st) 3 0 = resultKindCode st.result ∧ bitsOf (statusWord st) 7 4 = 0 ∧
      bitsOf (statusWord st) 15 8 = resultCauseCode st.result ∧
      bitsOf (statusWord st) 23 16 = st.lastCmd.toNat ∧ bitsOf (statusWord st) 31 24 = 0 := by
  have hkind := resultKindCode_lt st.result
  have hcause := resultCauseCode_lt st.result
  have hcmd := st.lastCmd.isLt
  simp only [bitsOf, statusWord, BitVec.toNat_ofNat]
  omega

/-- BUFFERED counts the whole buffer, whose length fits its 17 bits (R36, R39). -/
theorem wstateWord_fields (w : Writer) (hbuf : w.buf.length ≤ 65536) :
    bitsOf (wstateWord w) 16 0 = w.buf.length ∧
      bitsOf (wstateWord w) 17 17 = flagBit w.identSent ∧
      bitsOf (wstateWord w) 19 18 = phaseCode w.phase ∧
      bitsOf (wstateWord w) 23 20 = resultKindCode (writerFail w) ∧
      bitsOf (wstateWord w) 31 24 = resultCauseCode (writerFail w) := by
  have hident := flagBit_lt w.identSent
  have hphase := phaseCode_lt w.phase
  have hkind := resultKindCode_lt (writerFail w)
  have hcause := resultCauseCode_lt (writerFail w)
  simp only [bitsOf, wstateWord, BitVec.toNat_ofNat]
  omega

/-- PENDING counts all pending bytes, whose number fits its 17 bits (R37, R40). -/
theorem rstateWord_fields (r : Reader) (hpending : r.pending.length ≤ 65536) :
    bitsOf (rstateWord r) 16 0 = r.pending.length ∧
      bitsOf (rstateWord r) 17 17 = flagBit r.identSeen ∧
      bitsOf (rstateWord r) 18 18 = flagBit r.fail.isSome ∧
      bitsOf (rstateWord r) 19 19 = flagBit r.eos ∧
      bitsOf (rstateWord r) 23 20 = resultKindCode r.fail ∧
      bitsOf (rstateWord r) 31 24 = resultCauseCode r.fail := by
  have hident := flagBit_lt r.identSeen
  have hfailed := flagBit_lt r.fail.isSome
  have heos := flagBit_lt r.eos
  have hkind := resultKindCode_lt r.fail
  have hcause := resultCauseCode_lt r.fail
  simp only [bitsOf, rstateWord, BitVec.toNat_ofNat]
  omega

/-! ### READ_REG and WRITE_REG (R38, R400, R401) -/

section
variable {r : Byte} {v : Word32} {s s' : State} {c : Cause}

theorem exec_readReg_of_ok (h : readRegister r s = .ok v) :
    exec (.readReg r) s = .next (complete 0x50 (.reg v) s) := by
  simp only [exec, execReadReg, h]

theorem exec_readReg_of_error (h : readRegister r s = .error c) :
    exec (.readReg r) s = .next (raise 0x50 c s) := by
  simp only [exec, execReadReg, h]

theorem exec_writeReg_of_ok (h : writeRegister r v s = .ok s') :
    exec (.writeReg r v) s = .next (complete 0x51 .none s') := by
  simp only [exec, execWriteReg, h]

theorem exec_writeReg_of_error (h : writeRegister r v s = .error c) :
    exec (.writeReg r v) s = .next (raise 0x51 c s) := by
  simp only [exec, execWriteReg, h]

theorem readRegister_of_unassigned (h : r ∉ [(0x00 : Byte), 0x04, 0x08, 0x0C, 0x10]) :
    readRegister r s = .error .badRegister := by
  simp only [List.mem_cons, List.not_mem_nil, or_false, not_or] at h
  simp only [readRegister, h, if_false]

theorem writeRegister_of_unassigned (h : r ∉ [(0x00 : Byte), 0x04, 0x08, 0x0C, 0x10]) :
    writeRegister r v s = .error .badRegister := by
  simp only [List.mem_cons, List.not_mem_nil, or_false, not_or] at h
  simp only [writeRegister, h, or_self, if_false]

theorem writeRegister_of_readOnly (h : r ∈ [(0x08 : Byte), 0x0C, 0x10]) :
    writeRegister r v s = .error .regReadOnly := by
  simp only [List.mem_cons, List.not_mem_nil, or_false] at h
  obtain rfl | rfl | rfl := h <;> rfl

end

/-- Settles O46: each register's word is taken apart into its fields. -/
theorem readRegGivesEveryField : Obligations.ReadRegGivesEveryField := by
  intro s hbuf hpending
  obtain ⟨hbuffered, hsent, hphase, hwkind, hwcause⟩ := wstateWord_fields s.w hbuf
  obtain ⟨hheld, hseen, hfailed, heos, hrfail⟩ := rstateWord_fields s.r hpending
  refine ⟨?_, ?_, ?_, ?_, ?_, fun r hr => ?_⟩
  · exact ⟨_, exec_readReg_of_ok rfl, oneShotOk_complete ..⟩
  · rw [← ctrlWord_eq]
    exact ⟨_, exec_readReg_of_ok rfl, oneShotOk_complete ..⟩
  · exact ⟨_, _, exec_readReg_of_ok rfl, oneShotOk_complete .., statusWord_fields s.status⟩
  · refine ⟨_, _, exec_readReg_of_ok rfl, oneShotOk_complete .., hbuffered, hsent, hphase,
      hwkind.trans ?_, hwcause.trans ?_⟩
    all_goals
      unfold writerFail
      cases s.w.phase <;> rfl
  · exact ⟨_, _, exec_readReg_of_ok rfl, oneShotOk_complete .., hheld, hseen,
      hfailed.trans (flagBit_isSome s.r.fail), heos, hrfail⟩
  · exact ⟨_, exec_readReg_of_error (readRegister_of_unassigned hr), oneShotError_raise rfl rfl⟩

/-- Settles O47: the register number picks the branch; the bit stored in CFG_CTRL is the bit read. -/
theorem writeRegStoresConfiguration : Obligations.WriteRegStoresConfiguration := by
  intro v s
  refine ⟨?_, ?_, fun r hr => ?_, fun r hr => ?_⟩
  · exact ⟨_, exec_writeReg_of_ok rfl, rfl, oneShotOk_complete ..⟩
  · refine ⟨_, exec_writeReg_of_ok rfl, oneShotOk_complete .., _, exec_readReg_of_ok rfl, ?_⟩
    rw [complete_responses, complete_reqIdent, State.setReqIdent_reqIdent, ctrlWord_getLsbD_zero]
  · exact ⟨_, exec_writeReg_of_error (writeRegister_of_readOnly hr), oneShotError_raise rfl rfl⟩
  · exact ⟨_, exec_writeReg_of_error (writeRegister_of_unassigned hr), oneShotError_raise rfl rfl⟩

/-! ### The resets (R402 to R404) -/

/-- Settles O48: RESET completes from the block's reset state. -/
theorem resetRestoresTheBlock : Obligations.ResetRestoresTheBlock := by
  intro s
  have hdone := completedOk_complete 0x7F .none (resetBlock s)
  have ⟨_, _, hstatus⟩ := hdone
  exact ⟨complete 0x7F .none (resetBlock s), rfl, hdone, hstatus.trans (by decide), rfl, rfl, rfl,
    rfl, fun _ => rfl, rfl, rfl, rfl, rfl, rfl⟩

/-- Settles O49: each reset completes from the state with its one session reopened. -/
theorem sessionResetsAreSeparate : Obligations.SessionResetsAreSeparate := fun s =>
  ⟨⟨_, rfl, oneShotOk_complete 0x7D .none (openWriter s)⟩,
    _, rfl, oneShotOk_complete 0x7E .none (openReader s)⟩

/-! ### Codes without a command (R405) -/

/-- The ranges of R405 are all that R117 leaves. -/
theorem unassignedCode_iff {code : Byte} : unassignedCode code ↔ code ∉ commandCodes := by
  have hlt := code.isLt
  simp only [unassignedCode, commandCodes, List.mem_cons, List.not_mem_nil, or_false,
    ← BitVec.toNat_inj, BitVec.ofNat_eq_ofNat, BitVec.toNat_ofNat]
  omega

theorem decodeCommand_of_unassigned {c : HostCommand} (h : unassignedCode c.code) :
    decodeCommand c = .error .unknownCommand := by
  have hcode := unassignedCode_iff.mp h
  simp only [commandCodes, List.mem_cons, List.not_mem_nil, or_false, not_or] at hcode
  simp only [decodeCommand, hcode, if_false]

theorem step_of_refused_command {s : State} {c : HostCommand} {rest : List HostCommand} {e : Cause}
    (hs : s.engine = .idle) (hc : s.commands = c :: rest) (hi : decodeCommand c = .error e) :
    step s = .next (raise c.code e (s.setCommands rest)) := by
  simp only [step, fetch, hs, fetchCommand, hc, hi]

/-- Settles O50: the decoder refuses exactly the codes of R405, and the refusal leaves both sessions. -/
theorem unknownCommandIsRefused : Obligations.UnknownCommandIsRefused := by
  refine ⟨fun s c rest hs hc hcode => ?_, fun c hcode => ?_⟩
  · have hi := decodeCommand_of_unassigned hcode
    exact ⟨_, step_of_refused_command hs hc hi,
      oneShotError_raise (writerAfterRaise_of_illegal rfl ..)
        (readerAfterRaise_of_ne (decodeCommand_error hi).2 ..)⟩
  · cases hi : decodeCommand c with
    | ok i => exact ⟨i, rfl⟩
    | error e => exact absurd (unassignedCode_iff.mpr (decodeCommand_error_code hi)) hcode

end Sys2Proof.Machine

namespace Sys2Proof.Machine
open Sys2Proof.Spec

/-! ### A decode loop answers a next state (R244, R250) -/

section
variable {s : State} (hs : decoding s)
include hs

theorem exec_element_eq_next {i : Instr} (hi : i.isElement = true) : ∃ t, exec i s = .next t := by
  cases he : elementEffect s.dec.len i s.dec.dst with
  | ok dst => exact ⟨_, exec_element_ok hs hi he⟩
  | error c =>
    obtain ⟨t, hexec, -⟩ := exec_element_fails hs hi he
    exact ⟨t, hexec⟩

theorem endCheck_eq_next : ∃ t, endCheck s = .next t := by
  by_cases hlen : s.dec.dst.length = s.dec.len
  · rw [endCheck, if_neg (not_not.mpr hlen)]
    obtain he | ⟨max, stored, he⟩ := hs <;> rw [he] <;> exact ⟨_, rfl⟩
  · rw [endCheck, if_pos hlen, raiseDecode_of_decoding hs]
    exact ⟨_, rfl⟩

theorem steps_of_decoding : Steps s := by
  by_cases hpc : s.dec.pc < s.dec.src.length
  · cases hi : decodeElem (s.dec.src.drop s.dec.pc) with
    | ok x =>
      rw [Steps, step_of_element hs hpc hi]
      exact exec_element_eq_next hs (decodeElem_ok hi).1
    | error c =>
      obtain ⟨t, hstep, -⟩ := step_fails_of_cut hs hpc hi
      exact ⟨t, hstep⟩
  · rw [Steps, step_of_end hs (Nat.le_of_not_lt hpc)]
    exact endCheck_eq_next hs

end

/-! ### FR_READ's loop answers a next state (R351, R352) -/

section
variable {s : State} {max : Word64} (he : s.engine = .reading max)
include he

theorem exec_chunkOf_eq_next (ty : Byte) (len : Nat) : ∃ t, exec (chunkOf ty len) s = .next t := by
  obtain ⟨dispatch, hrun⟩ := exec_chunkOf ty len s
  rw [hrun]
  obtain ⟨-, hne⟩ | ⟨_, -, ⟨_, -, h⟩ | ⟨-, ⟨_, -, h⟩ | ⟨_, _, -, h⟩ | ⟨_, _, -, h⟩⟩⟩ :=
    runChunk_cases ty len s dispatch
  · exact absurd he (hne max)
  all_goals exact ⟨_, h⟩

/-- A full header has four bytes, which decode to a chunk, and its fetch leaves FR_READ running. -/
theorem steps_of_header {hdr : List Byte} {t : State} (hp : s.r.pending = [])
    (hread : sourceReadExact 4 s = .full hdr t) : Steps s := by
  have het : t.engine = .reading max := by
    obtain ⟨n, q, hst⟩ := sourceReadExact_took 4 s
    rw [hread] at hst
    exact (congrArg State.engine hst).trans he
  match hdr, sourceReadExact_full_length hread with
  | [ty, a, b, c], _ =>
    rw [Steps, step_of_chunk he hp hread (decodeChunk_header ty a b c [])]
    exact exec_chunkOf_eq_next het ty _

theorem steps_of_reading : Steps s := by
  by_cases hp : s.r.pending = []
  · cases hread : sourceReadExact 4 s with
    | full hdr t => exact steps_of_header he hp hread
    | short got t =>
      by_cases hgot : got = []
      · exact ⟨_, step_of_clean_end he hp (hgot ▸ hread)⟩
      · exact ⟨_, step_of_cut_header he hp hgot hread⟩
    | ioFail t => exact ⟨_, step_of_failed_header he hp hread⟩
  · exact ⟨_, step_of_pending he hp⟩

end

/-! ### The idle engine answers a next state (R30, R405) -/

theorem writerEntry_eq_next (cmd : Byte) (s : State) (body : State → State) :
    ∃ t, writerEntry cmd s body = .next t := by
  obtain ⟨_, -, h⟩ | ⟨-, -, h⟩ | ⟨-, -, h⟩ | ⟨-, h⟩ := writerEntry_cases cmd s body
  all_goals exact ⟨_, h⟩

theorem exec_frRead_eq_next (max : Word64) (s : State) : ∃ t, exec (.frRead max) s = .next t := by
  cases hfail : s.r.fail with
  | some c => exact ⟨_, exec_frRead_of_failed hfail⟩
  | none =>
    by_cases hmax : max = 0
    · exact ⟨_, hmax ▸ exec_frRead_zero hfail⟩
    · exact ⟨_, exec_frRead_eq_frLoop hfail hmax⟩

/-- Every command completes, starts its loop or raises an error, each of them a next state (R437). -/
theorem exec_command_eq_next {i : Instr} {c : HostCommand} (hi : encode i = .command c) (s : State) :
    ∃ t, exec i s = .next t := by
  cases i with
  | varintEncode _ | resetWriter | resetReader | reset => exact ⟨_, rfl⟩
  | varintDecode _ | maxCompressLen _ | compress _ | decompress _ | readReg _ | writeReg _ _ =>
    simp only [exec, execVarintDecode, execMaxCompressLen, execCompress, execDecompress,
      execReadReg, execWriteReg]
    split <;> exact ⟨_, rfl⟩
  | fwWrite _ | fwFlush | fwClose =>
    simp only [exec_fwWrite, exec_fwFlush, exec_fwClose, writerEntry_eq_next]
  | frRead max => exact exec_frRead_eq_next max s
  | _ => cases hi

theorem steps_of_idle {s : State} (he : s.engine = .idle) : Steps s := by
  cases hc : s.commands with
  | nil => exact ⟨s, step_of_no_command he hc⟩
  | cons c rest =>
    cases hi : decodeCommand c with
    | ok i =>
      obtain ⟨c', hc', -⟩ := encode_of_decodeCommand hi
      rw [Steps, step_of_command he hc hi]
      exact exec_command_eq_next hc' _
    | error e => exact ⟨_, step_of_refused_command he hc hi⟩

/-- Settles O53: what the engine is doing picks the opcode space of the fetch, so no element runs
outside a decode and no chunk outside FR_READ. -/
theorem everyStepAnswersANextState : Obligations.EveryStepAnswersANextState := by
  intro s
  cases he : s.engine with
  | idle => exact steps_of_idle he
  | decompressing => exact steps_of_decoding (.inl he)
  | decodingChunk max stored => exact steps_of_decoding (.inr ⟨max, stored, he⟩)
  | reading max => exact steps_of_reading he

/-! ### The reset state (R48, R471) -/

/-- Settles O54: the values are those of the reset state; an empty table reads 0 everywhere. -/
theorem resetMeetsTheInvariants : Obligations.ResetMeetsTheInvariants :=
  ⟨by decide, htOk_nil, rfl, rfl, by decide, by decide, by decide, rfl, fun _ => rfl, rfl⟩

end Sys2Proof.Machine
